-- ==== Sys2Proof/Word.lean ====
section
/-! DEFINITION. The word types of the block: 32-bit values and 16-bit counter halves (00_scope R7 to R9). -/

namespace Sys2Proof

/-- `bits32` of R8: counts, rates, operands, register contents. Arithmetic wraps modulo 2^32 (R9). -/
abbrev Word := BitVec 32

/-- `bits16` of R8: one half of the tick counter (R7, `HALF_WIDTH`). -/
abbrev Half := BitVec 16

end Sys2Proof
end

