-- ==== Sys2Proof/Syntax.lean ====
section
/-! DEFINITION. The six operations of the block's command interface and the command that carries one
(30_encoding R54 to R59). -/

namespace Sys2Proof

/-- The four clock modes, in the order the source lists them (R58). -/
inductive ClockMode
  | osc40      -- index 0, "40MHz-oscillator"
  | clk20_22   -- index 1, "20–22MHz"
  | clk40_44   -- index 2, "40–44MHz"
  | clk80_88   -- index 3, "80–88MHz"
deriving DecidableEq, Repr, Inhabited

/-- One operation with its operands (R57, R59): one constructor per row of the opcode table. -/
inductive Instr
  /-- READ_COUNTER (R70): RESULT <- the composed count. -/
  | readCounter
  /-- CLOCK_SET m, en (R74). -/
  | clockSet (m : ClockMode) (en : Bool)
  /-- READ_RATE (R80): RESULT <- the tick rate. -/
  | readRate
  /-- IS_AFTER_MSECS t0, msecs (R83): operand word A is `t0`, B is `msecs`. -/
  | isAfterMsecs (t0 msecs : Word)
  /-- DELAY msec (R89): operand word A is `msec`. -/
  | delay (msec : Word)
  /-- UDELAY usec (R91): operand word A is `usec`. -/
  | udelay (usec : Word)
deriving DecidableEq, Repr, Inhabited

/-- What the command port carries: a command word and two operand words (R54, R55). -/
structure Command where
  cmd : Word
  a : Word
  b : Word
deriving DecidableEq, Repr, Inhabited

end Sys2Proof
end

