-- ==== Sys2Proof/Config.lean ====
section
/-! DEFINITION. What is fixed for one machine (the parameters of 00_scope R7) and the free values: the
environment's moves, which no law binds (10_state R21, R36). -/

namespace Sys2Proof

/-- `READ_ORDER` (R7, R69): which counter half `ReadCounter` reads first. -/
inductive ReadOrder
  | highFirst
  | lowFirst
deriving DecidableEq, Repr, Inhabited

/-- `RATE_RESET_POLICY` (R7, R24): what a read of the rate before its first configuration means. -/
inductive RatePolicy
  | fault
  | zero
deriving DecidableEq, Repr, Inhabited

/-- `MODE_CODE` (R7, R63): "any four 32-bit values", one per clock mode. -/
structure ModeCodes where
  osc40 : Word
  clk20_22 : Word
  clk40_44 : Word
  clk80_88 : Word
deriving DecidableEq, Repr, Inhabited

/-- The parameters of R7 that no source fixes. Plain data: the state carries one value of it, which no
step changes (log 5). -/
structure Params where
  addrClockHigh : Word
  addrClockLow : Word
  addrPllAddac : Word
  addrClockSel : Word
  /-- `PLL_DIV_LSB`. -/
  divLsb : Nat
  /-- `PLL_DIV_WIDTH`. -/
  divWidth : Nat
  readOrder : ReadOrder
  ratePolicy : RatePolicy
  modeCode : ModeCodes
deriving DecidableEq, Repr, Inhabited

/-- The values R36 leaves open at a reset ("any": a draw under no law). -/
structure ResetDraw where
  n : Nat
  pllAddac : Word
  clockSel : Word
  rate : Word
  result : Word
  faultCmd : Word
deriving DecidableEq, Repr, Inhabited

/-- One move of everything outside the block: `EnvAdvance` of R21 (the draw `k`, the new PLL_ADDAC, an
external reset or none), and the command the caller presents, if any (R55; log 8). -/
structure EnvMove where
  ticks : Nat
  pllAddac : Word
  reset : Option ResetDraw
  present : Option Command
deriving DecidableEq, Repr, Inhabited

/-- `MS_DIVISOR` (R7). -/
def Config.msDivisor : Word := 1000#32

/-- `RATE_SHIFT` (R7). -/
def Config.rateShift : Nat := 1

/-- `SEL_EN_BASE` (R7). -/
def Config.selEnBase : Word := 0x70#32

/-- `SEL_DIS_BASE` (R7). -/
def Config.selDisBase : Word := 0x600#32

/-- FREE VALUE: the environment's move when no scripted one is left (R21: "Each draw is free"; log 2). -/
opaque Config.freeMove : Nat → EnvMove

/-- OPEN in R7: the seed of `ADDR_CLOCK_HIGH` (log 6). -/
opaque Config.addrSeedClockHigh : Word

/-- OPEN in R7: the seed of `ADDR_CLOCK_LOW` (log 6). -/
opaque Config.addrSeedClockLow : Word

/-- OPEN in R7: the seed of `ADDR_PLL_ADDAC` (log 6). -/
opaque Config.addrSeedPllAddac : Word

/-- OPEN in R7: the seed of `ADDR_CLOCK_SEL` (log 6). -/
opaque Config.addrSeedClockSel : Word

/-- OPEN in R7: the seed of `PLL_DIV_LSB` (log 6). -/
opaque Config.divLsbSeed : Nat

/-- OPEN in R7: the seed of `PLL_DIV_WIDTH` (log 6). -/
opaque Config.divWidthSeed : Nat

/-- The first of `x, x + 1, x + 2, x + 3` that is not in `used`: it is `x` whenever `x` is not in `used`,
so every choice of pairwise distinct addresses (R38) is reached from some seeds. -/
def Config.distinctFrom (used : List Word) (x : Word) : Word :=
  ([x, x + 1, x + 2, x + 3].find? (fun y => !used.contains y)).getD x

/-- `ADDR_CLOCK_HIGH`. -/
def Config.addrClockHigh : Word := Config.addrSeedClockHigh

/-- `ADDR_CLOCK_LOW`, distinct from the address above (R38). -/
def Config.addrClockLow : Word :=
  Config.distinctFrom [Config.addrClockHigh] Config.addrSeedClockLow

/-- `ADDR_PLL_ADDAC`, distinct from the two addresses above (R38). -/
def Config.addrPllAddac : Word :=
  Config.distinctFrom [Config.addrClockHigh, Config.addrClockLow] Config.addrSeedPllAddac

/-- `ADDR_CLOCK_SEL`, distinct from the three addresses above (R38). -/
def Config.addrClockSel : Word :=
  Config.distinctFrom [Config.addrClockHigh, Config.addrClockLow, Config.addrPllAddac]
    Config.addrSeedClockSel

/-- `PLL_DIV_LSB`: any value below 32 (R7). -/
def Config.divLsb : Nat := Config.divLsbSeed % 32

/-- `PLL_DIV_WIDTH`: any value with `1 <= width` and `lsb + width <= 32` (R7). -/
def Config.divWidth : Nat := Config.divWidthSeed % (32 - Config.divLsb) + 1

/-- The parameters of the machine that `State.reset` describes: R7's default where it gives one
(`READ_ORDER`, `RATE_RESET_POLICY`, `MODE_CODE`), an open constant elsewhere (log 5, log 6). -/
def Config.params : Params where
  addrClockHigh := Config.addrClockHigh
  addrClockLow := Config.addrClockLow
  addrPllAddac := Config.addrPllAddac
  addrClockSel := Config.addrClockSel
  divLsb := Config.divLsb
  divWidth := Config.divWidth
  readOrder := .highFirst
  ratePolicy := .fault
  modeCode := ⟨0#32, 1#32, 2#32, 3#32⟩

end Sys2Proof
end

