-- ==== Sys2Proof/WellFormed.lean ====
section
/-! DEFINITION. What may be ill-formed: a command word (30_encoding R60) and a set of parameters
(00_scope R7, 20_memory R38). A term of `Instr` cannot be: its mode is one of four, its flag a Bool and its
operands 32-bit words (R58, R59). -/

namespace Sys2Proof

/-- `OP` is one of the six of R57, not 6 or 7. -/
def Command.opLegal (w : Word) : Bool := decide (w.toNat % 8 < 6)

/-- `CMD[31:6] = 0` (R60). -/
def Command.reservedClear (w : Word) : Bool := decide (w.toNat / 64 = 0)

/-- `CMD[5:3] = 0` unless `OP = 1` (R60). -/
def Command.modeClear (w : Word) : Bool := decide (w.toNat % 8 = 1 ∨ w.toNat / 8 % 8 = 0)

/-- The word is none of R60's illegal ones. -/
def Command.legal (w : Word) : Bool :=
  Command.opLegal w && Command.reservedClear w && Command.modeClear w

/-- `1 <= PLL_DIV_WIDTH` (R7). -/
def Params.widthPositive (p : Params) : Bool := decide (1 ≤ p.divWidth)

/-- `PLL_DIV_LSB + PLL_DIV_WIDTH <= 32` (R7). -/
def Params.fieldFits (p : Params) : Bool := decide (p.divLsb + p.divWidth ≤ 32)

/-- The four addresses are pairwise distinct (R38). -/
def Params.addressesDistinct (p : Params) : Bool :=
  decide ([p.addrClockHigh, p.addrClockLow, p.addrPllAddac, p.addrClockSel].Nodup)

/-- The constraints R7 and R38 put on the parameters. -/
def Params.wf (p : Params) : Bool :=
  p.widthPositive && p.fieldFits && p.addressesDistinct

end Sys2Proof
end

