-- ==== Sys2Proof/Decode.lean ====
section
/-! DEFINITION. The command word's fields, the decoder and the encoder (30_encoding R56 to R61), the opcode
table's rows, and the assembler text of an operation (R67). -/

namespace Sys2Proof

/-- Why a command word is illegal (R60). Where several reasons hold, the first of this order is named
(log 18). -/
inductive DecodeError
  /-- `CMD[31:6] != 0`. -/
  | reservedBitsSet
  /-- `OP != 1` and `CMD[5:3] != 0`. -/
  | modeOrEnableSet
  /-- `OP` is 6 or 7. -/
  | reservedOp
deriving DecidableEq, Repr

/-- `OP = CMD[2:0]` (R56). -/
def opField (w : Word) : BitVec 3 := w.extractLsb' 0 3

/-- `MODE = CMD[4:3]` (R56). -/
def modeField (w : Word) : BitVec 2 := w.extractLsb' 3 2

/-- `EN = CMD[5]` (R56). -/
def enField (w : Word) : BitVec 1 := w.extractLsb' 5 1

/-- `CMD[31:6]` (R56). -/
def reservedField (w : Word) : BitVec 26 := w.extractLsb' 6 26

/-- The mode of index `m` (R58). -/
def ClockMode.ofIndex (m : BitVec 2) : ClockMode :=
  if m = 0#2 then .osc40
  else if m = 1#2 then .clk20_22
  else if m = 2#2 then .clk40_44
  else .clk80_88

/-- The index `m` of a mode (R58). -/
def ClockMode.index : ClockMode → BitVec 2
  | .osc40 => 0#2
  | .clk20_22 => 1#2
  | .clk40_44 => 2#2
  | .clk80_88 => 3#2

/-- The decoder: total on every command, rejecting by name (R56 to R60). -/
def decode (c : Command) : Except DecodeError Instr :=
  if reservedField c.cmd ≠ 0#26 then .error .reservedBitsSet
  else if opField c.cmd = 1#3 then
    .ok (.clockSet (ClockMode.ofIndex (modeField c.cmd)) (enField c.cmd == 1#1))
  else if modeField c.cmd ≠ 0#2 ∨ enField c.cmd ≠ 0#1 then .error .modeOrEnableSet
  else if opField c.cmd = 0#3 then .ok .readCounter
  else if opField c.cmd = 2#3 then .ok .readRate
  else if opField c.cmd = 3#3 then .ok (.isAfterMsecs c.a c.b)
  else if opField c.cmd = 4#3 then .ok (.delay c.a)
  else if opField c.cmd = 5#3 then .ok (.udelay c.a)
  else .error .reservedOp

/-- The `OP` value of an operation (R57). -/
def Instr.op : Instr → BitVec 3
  | .readCounter => 0#3
  | .clockSet _ _ => 1#3
  | .readRate => 2#3
  | .isAfterMsecs _ _ => 3#3
  | .delay _ => 4#3
  | .udelay _ => 5#3

/-- The command word of an operation: R67's `CMD` values,
for CLOCK_SET `0x1 | (m << 3) | (e << 5)`. -/
def Instr.word : Instr → Word
  | .readCounter => 0x00000000#32
  | .clockSet m en =>
    1#32 ||| (m.index.setWidth 32 <<< 3) ||| ((if en then 1#32 else 0#32) <<< 5)
  | .readRate => 0x00000002#32
  | .isAfterMsecs _ _ => 0x00000003#32
  | .delay _ => 0x00000004#32
  | .udelay _ => 0x00000005#32

/-- The operand words of an operation (R59); an ignored one is written as zero (log 15). -/
def Instr.operands : Instr → Word × Word
  | .isAfterMsecs t0 msecs => (t0, msecs)
  | .delay msec => (msec, 0#32)
  | .udelay usec => (usec, 0#32)
  | .readCounter => (0#32, 0#32)
  | .clockSet _ _ => (0#32, 0#32)
  | .readRate => (0#32, 0#32)

/-- The encoder. -/
def encode (i : Instr) : Command := ⟨i.word, i.operands.1, i.operands.2⟩

/-- One row of spec/opcode_table.json: the word matches when `w &&& mask = pattern`. -/
structure OpcodeRow where
  mnemonic : String
  pattern : Word
  mask : Word
deriving DecidableEq, Repr

/-- The opcode table, as spec/opcode_table.json gives it. -/
def opcodeTable : List OpcodeRow :=
  [⟨"READ_COUNTER", 0x00000000#32, 0xFFFFFFFF#32⟩,
   ⟨"CLOCK_SET", 0x00000001#32, 0xFFFFFFC7#32⟩,
   ⟨"READ_RATE", 0x00000002#32, 0xFFFFFFFF#32⟩,
   ⟨"IS_AFTER_MSECS", 0x00000003#32, 0xFFFFFFFF#32⟩,
   ⟨"DELAY", 0x00000004#32, 0xFFFFFFFF#32⟩,
   ⟨"UDELAY", 0x00000005#32, 0xFFFFFFFF#32⟩]

/-- The mnemonic of an operation (R57, R67). -/
def Instr.mnemonic : Instr → String
  | .readCounter => "READ_COUNTER"
  | .clockSet _ _ => "CLOCK_SET"
  | .readRate => "READ_RATE"
  | .isAfterMsecs _ _ => "IS_AFTER_MSECS"
  | .delay _ => "DELAY"
  | .udelay _ => "UDELAY"

/-- The assembler name of a mode (R58). -/
def ClockMode.asmName : ClockMode → String
  | .osc40 => "OSC40"
  | .clk20_22 => "CLK20_22"
  | .clk40_44 => "CLK40_44"
  | .clk80_88 => "CLK80_88"

/-- The operand text of an operation in the assembler notation of R67: the mode by name, words in
decimal. -/
def Instr.asmOperands : Instr → List String
  | .readCounter => []
  | .clockSet m en => [m.asmName, if en then "1" else "0"]
  | .readRate => []
  | .isAfterMsecs t0 msecs => [toString t0.toNat, toString msecs.toNat]
  | .delay msec => [toString msec.toNat]
  | .udelay usec => [toString usec.toNat]

/-- A command from its bits: the command word in bits 31:0, `A` in 63:32, `B` in 95:64; every bit from
`nbits` up is 0 (log 14). -/
def Command.ofBits (nbits w : Nat) : Command :=
  ⟨BitVec.ofNat 32 (w % 2 ^ nbits), BitVec.ofNat 32 (w % 2 ^ nbits / 2 ^ 32),
   BitVec.ofNat 32 (w % 2 ^ nbits / 2 ^ 64)⟩

/-- The decoder on an instruction whose bits are `w`, numbered as spec/opcode_table.json numbers them. -/
def decodeTableWord (nbits w : Nat) : Option Instr := (decode (Command.ofBits nbits w)).toOption

end Sys2Proof
end

