-- ==== Sys2Proof/Machine/State.lean ====
section
/-! DEFINITION. The state: every piece of 10_state R13, and the model's own fields beside it (INVENTORY.md,
"State"); why a step can stop; the state right after reset. -/

namespace Sys2Proof.Machine

/-- `FAULT` (R32, R100): the sticky record. Its values are states of the machine, not stops of the model. -/
inductive FaultCode
  | none             -- 0
  | illegalCommand   -- 1
  | rateUninit       -- 2
deriving DecidableEq, Repr, Inhabited

/-- The phases of READ_COUNTER (R30: the step index; R33: one step per bus access). -/
inductive ReadPhase
  /-- 0: no half read yet. -/
  | start
  /-- 1: the first half is read and held. -/
  | second (first : Half)
deriving DecidableEq, Repr, Inhabited

/-- The phases of CLOCK_SET. -/
inductive SetPhase
  /-- 0: before step (a). -/
  | start
  /-- 1: step (a) is done, the CLOCK_SEL write (step (b)) is next. -/
  | write
deriving DecidableEq, Repr, Inhabited

/-- The phases of IS_AFTER_MSECS. -/
inductive ComparePhase
  /-- 0: before the rate check. -/
  | start
  /-- 1: the rate `r` and the first half of `c` are read and held. -/
  | second (first : Half) (r : Word)
deriving DecidableEq, Repr, Inhabited

/-- The phases of DELAY and UDELAY. -/
inductive DelayPhase
  /-- 0: before the capture read. -/
  | start
  /-- 1: the first half of `t1` is read and held. -/
  | second (first : Half)
  /-- POLL, with `t1` and `wt` (R30, R89, R91). -/
  | poll (t1 wt : Word)
  /-- POLL, the first half of `t2` read and held. -/
  | pollSecond (t1 wt : Word) (first : Half)
deriving DecidableEq, Repr, Inhabited

/-- What `BUSY(op, phase, t1, wt)` holds (R30): the operation with its operands, kept only while it runs
(R14), its phase, and in POLL `t1` and `wt`. -/
inductive Busy
  | readCounter (ph : ReadPhase)
  | clockSet (m : ClockMode) (en : Bool) (ph : SetPhase)
  | readRate
  | isAfterMsecs (t0 msecs : Word) (ph : ComparePhase)
  | delay (msec : Word) (ph : DelayPhase)
  | udelay (usec : Word) (ph : DelayPhase)
deriving DecidableEq, Repr, Inhabited

/-- `OPSTATE` (R30). -/
inductive OpState
  | idle
  | busy (b : Busy)
  | faulted
deriving DecidableEq, Repr, Inhabited

/-- One access on the register bus (R39 to R41): the address and the value moved. -/
inductive BusAccess
  | read16 (addr : Word) (v : Half)
  | read32 (addr : Word) (v : Word)
  | write32 (addr : Word) (v : Word)
deriving DecidableEq, Repr, Inhabited

/-- Which agent moves next (log 1). -/
inductive Turn
  | block
  | environment
deriving DecidableEq, Repr, Inhabited

/-- The machine's state. -/
structure State where
  /-- `N` (R19): the true tick count; `CNT = N mod 2^32` is derived from it. -/
  n : Nat
  /-- `PLL_ADDAC` (R25). -/
  pllAddac : Word
  /-- `CLOCK_SEL` (R26): the last written value. -/
  clockSel : Word
  /-- `RATE` (R23), the source's `ticks_per_msec`. -/
  rate : Word
  /-- `RATE_VALID` (R24). -/
  rateValid : Bool
  /-- `OPSTATE` (R30). -/
  opstate : OpState
  /-- `RESULT` (R31). -/
  result : Word
  /-- `FAULT` (R32). -/
  fault : FaultCode
  /-- `FAULT_CMD` (R32). -/
  faultCmd : Word
  /-- The model's own: the parameters of R7; no step writes it (log 5). -/
  params : Params
  /-- The model's own: the command waiting at the port (R55; log 8). -/
  port : Option Command
  /-- The model's own: the environment's coming moves, oldest first (log 2). -/
  env : List EnvMove
  /-- The model's own: how many free moves the environment has taken (log 2). -/
  draws : Nat
  /-- The model's own: whose move is next (log 1). -/
  turn : Turn
  /-- The model's own: the bus accesses made, newest first; nothing reads it (log 12). -/
  bus : List BusAccess
deriving DecidableEq, Repr

/-- Why a step stops with a fault: no rule of the spec stops the machine (R47, R98: "No operation reports
failure"), so there is no such reason; FAULT (`FaultCode`) is a state (log 16). Nobody raises one; safe. -/
inductive Fault
deriving DecidableEq, Repr

/-- Why a step is refused. -/
inductive Refusal
  /-- `exec` raises it for an instruction that has no meaning yet; no arm does. Safe: the run stops. -/
  | notModelled (mnemonic : String)
deriving DecidableEq, Repr

/-- The state right after power-on (R36): `RATE_VALID` 0, `OPSTATE` IDLE, `FAULT` NONE. Where R36 says "any"
the value 0 is a DESIGN CHOICE (log 3); the model's own fields as logs 1, 2, 5, 8 and 12 say. -/
def State.reset : State where
  n := 0
  pllAddac := 0#32
  clockSel := 0#32
  rate := 0#32
  rateValid := false
  opstate := .idle
  result := 0#32
  fault := .none
  faultCmd := 0#32
  params := Config.params
  port := none
  env := []
  draws := 0
  turn := .block
  bus := []

end Sys2Proof.Machine
end

