-- ==== Sys2Proof/Machine/Operands.lean ====
section
/-! DEFINITION. The value formats of 30_encoding section 4: the counter's halves and their composition, the
DIV field and the rate, the clock-select value; and the names R30 gives an operation's progress. -/

namespace Sys2Proof.Machine

/-- One of the two halves of the counter (R18). -/
inductive CounterHalf
  | high
  | low
deriving DecidableEq, Repr

/-- `CNT = N mod 2^32` (R17, R19). -/
def cntOf (n : Nat) : Word := BitVec.ofNat 32 n

/-- What a half register reads as at the count `n` (R18, R39). -/
def halfOf (h : CounterHalf) (n : Nat) : Half :=
  match h with
  | .high => (cntOf n).extractLsb' 16 16
  | .low => (cntOf n).extractLsb' 0 16

/-- `Compose(hi, lo) = (zext_32(hi) << 16) | zext_32(lo)` (R64). -/
def compose (hi lo : Half) : Word := (hi.setWidth 32 <<< 16) ||| lo.setWidth 32

/-- The half `ReadCounter` reads first (R69). -/
def firstHalf : ReadOrder → CounterHalf
  | .highFirst => .high
  | .lowFirst => .low

/-- The half `ReadCounter` reads second (R69). -/
def secondHalf : ReadOrder → CounterHalf
  | .highFirst => .low
  | .lowFirst => .high

/-- The composition of a first and a second half read (R69). -/
def composeRead (o : ReadOrder) (first second : Half) : Word :=
  match o with
  | .highFirst => compose first second
  | .lowFirst => compose second first

/-- `DivField(p)` (R65): the field's bits of PLL_ADDAC. -/
def divField (p : Params) (pll : Word) : BitVec p.divWidth := pll.extractLsb' p.divLsb p.divWidth

/-- `RateOf(p) = zext_32(DivField(p) >> 1)` (R65, R75). -/
def rateOf (p : Params) (pll : Word) : Word := (divField p pll >>> Config.rateShift).setWidth 32

/-- `MODE_CODE(m)` (R63). -/
def modeCodeOf (c : ModeCodes) (m : ClockMode) : Word :=
  match m with
  | .osc40 => c.osc40
  | .clk20_22 => c.clk20_22
  | .clk40_44 => c.clk40_44
  | .clk80_88 => c.clk80_88

/-- `SelValue(m, en)` (R62). -/
def selValue (c : ModeCodes) (m : ClockMode) (en : Bool) : Word :=
  (if en then Config.selEnBase else Config.selDisBase) ||| modeCodeOf c m

/-- The delta `(later - earlier) mod 2^32` (R9, R84). -/
def delta (later earlier : Word) : Word := later - earlier

/-- A threshold: `(x * r) mod 2^32` (R84, R89, R91). -/
def threshold (x r : Word) : Word := x * r

/-- The operation a BUSY state runs. -/
def Busy.instr : Busy → Instr
  | .readCounter _ => .readCounter
  | .clockSet m en _ => .clockSet m en
  | .readRate => .readRate
  | .isAfterMsecs t0 msecs _ => .isAfterMsecs t0 msecs
  | .delay msec _ => .delay msec
  | .udelay usec _ => .udelay usec

/-- `BUSY(op, 0, -, -)` (R55): an operation just accepted. -/
def Busy.start : Instr → Busy
  | .readCounter => .readCounter .start
  | .clockSet m en => .clockSet m en .start
  | .readRate => .readRate
  | .isAfterMsecs t0 msecs => .isAfterMsecs t0 msecs .start
  | .delay msec => .delay msec .start
  | .udelay usec => .udelay usec .start

/-- The step index of a delay's phase, `none` for the loop phase POLL (R30). -/
def DelayPhase.index : DelayPhase → Option Nat
  | .start => some 0
  | .second _ => some 1
  | .poll _ _ => none
  | .pollSecond _ _ _ => none

/-- R30's `phase`: the step index within the operation, `none` for the named phase POLL. -/
def Busy.phase : Busy → Option Nat
  | .readCounter .start => some 0
  | .readCounter (.second _) => some 1
  | .clockSet _ _ .start => some 0
  | .clockSet _ _ .write => some 1
  | .readRate => some 0
  | .isAfterMsecs _ _ .start => some 0
  | .isAfterMsecs _ _ (.second _ _) => some 1
  | .delay _ ph => ph.index
  | .udelay _ ph => ph.index

/-- The pair `(t1, wt)` of a delay's phase, where it has one. -/
def DelayPhase.times : DelayPhase → Option (Word × Word)
  | .start => none
  | .second _ => none
  | .poll t1 wt => some (t1, wt)
  | .pollSecond t1 wt _ => some (t1, wt)

/-- R30's `t1` and `wt`, "used only by DELAY and UDELAY". -/
def Busy.times : Busy → Option (Word × Word)
  | .readCounter _ => none
  | .clockSet _ _ _ => none
  | .readRate => none
  | .isAfterMsecs _ _ _ => none
  | .delay _ ph => ph.times
  | .udelay _ ph => ph.times

/-- The numeric value of a fault code (R100). -/
def FaultCode.value : FaultCode → Nat
  | .none => 0
  | .illegalCommand => 1
  | .rateUninit => 2

end Sys2Proof.Machine
end

