-- ==== Sys2Proof/Machine/Flags.lean ====
section
/-! DEFINITION. The block has no status flags (10_state R15); its conditions are the comparisons below. -/

namespace Sys2Proof.Machine

/-- `IsAfter(c, t0, msecs, r)` (R84): the strict comparison (R85). -/
def isAfter (c t0 msecs r : Word) : Bool :=
  decide (delta c t0 / Config.msDivisor > threshold msecs r)

/-- The end of a DELAY poll (R89): the quotient of the delta by 1000 reaches `wt`, not strictly (R90). -/
def delayEnds (t1 wt t2 : Word) : Bool := decide (delta t2 t1 / Config.msDivisor ≥ wt)

/-- The end of a UDELAY poll (R91): the raw delta reaches `wt`. -/
def udelayEnds (t1 wt t2 : Word) : Bool := decide (delta t2 t1 ≥ wt)

/-- The value a Boolean answer has on the result port (R31). -/
def boolWord (b : Bool) : Word := if b then 1#32 else 0#32

end Sys2Proof.Machine
end

