-- ==== Sys2Proof/Machine/Ops.lean ====
section
/-! DEFINITION. The shared operations: the register bus, the register accesses of the block, the sequencing of an
operation, raising a fault, and the reset (20_memory R39 to R41; 10_state R24, R30, R36; 60_exceptions R99). -/

namespace Sys2Proof.Machine

/-- Put one access on the record of the bus (log 12). -/
def State.record (a : BusAccess) (s : State) : State := { s with bus := a :: s.bus }

/-- The block's move is over: an `EnvAdvance` follows (R11; log 1). -/
def State.yield (s : State) : State := { s with turn := .environment }

/-- `OPSTATE <- BUSY(op, phase, t1, wt)`. -/
def State.continueAs (b : Busy) (s : State) : State := { s with opstate := .busy b }

/-- `OPSTATE <- IDLE`: the operation is complete (R55). -/
def State.complete (s : State) : State := { s with opstate := .idle }

/-- `RESULT <- v` (R31). -/
def State.setResult (v : Word) (s : State) : State := { s with result := v }

/-- `x[RATE] <- r; x[RATE_VALID] <- 1` (R74). -/
def State.configure (r : Word) (s : State) : State := { s with rate := r, rateValid := true }

/-- `CLOCK_SEL <- v` (R41). -/
def State.setClockSel (v : Word) (s : State) : State := { s with clockSel := v }

/-- Acceptance (R55): the command leaves the port and `OPSTATE <- BUSY(op, 0, -, -)`. -/
def State.accept (i : Instr) (s : State) : State :=
  { s with port := none, opstate := .busy (Busy.start i) }

/-- The block's state as it turns to the operation `i`: accepted if the block is IDLE, else as it is
(R55: "A command is accepted only when OPSTATE = IDLE"). -/
def State.engage (i : Instr) (s : State) : State :=
  match s.opstate with
  | .idle => s.accept i
  | .busy _ => s
  | .faulted => s

/-- `raise Fault(code)` (R99): the one operation every fault goes through. Nothing else is saved, no mode
changes and no vector is taken (R103). The only way back is `State.resetWith` (R104). -/
def State.raiseFault (code : FaultCode) (recorded : Word) (s : State) : State :=
  { s with fault := code, faultCmd := recorded, opstate := .faulted }

/-- `Fault(RATE_UNINIT)` of the operation `i`: FAULT_CMD records its `OP` value (R100). -/
def State.raiseRateUninit (i : Instr) (s : State) : State :=
  s.raiseFault .rateUninit (i.op.setWidth 32)

/-- `Fault(ILLEGAL_COMMAND)` on acceptance of the illegal word `w` (R60, R100): the command has left the
port, FAULT_CMD keeps the word, and no bus access is made. -/
def State.raiseIllegal (w : Word) (s : State) : State :=
  State.raiseFault .illegalCommand w { s with port := none }

/-- The reset (R116): the state of R36, with `d` for what R36 leaves open and `waiting` for what then waits
at the port (log 9). The operation in progress is abandoned; no bus access is made. -/
def State.resetWith (d : ResetDraw) (waiting : Option Command) (s : State) : State :=
  { s with
    n := d.n
    pllAddac := d.pllAddac
    clockSel := d.clockSel
    rate := match s.params.ratePolicy with
      | .fault => d.rate
      | .zero => 0#32
    rateValid := false
    opstate := .idle
    result := d.result
    fault := .none
    faultCmd := d.faultCmd
    port := waiting
    turn := .block }

/-- The address of a counter half (R38). -/
def halfAddr (p : Params) (h : CounterHalf) : Word :=
  match h with
  | .high => p.addrClockHigh
  | .low => p.addrClockLow

/-- `RegRead16` of a counter half (R39): the half at this instant; nothing but the record changes (R46). -/
def State.regRead16 (h : CounterHalf) (s : State) : Half × State :=
  (halfOf h s.n, s.record (.read16 (halfAddr s.params h) (halfOf h s.n)))

/-- `RegRead32(ADDR_PLL_ADDAC)` (R40). -/
def State.regRead32 (s : State) : Word × State :=
  (s.pllAddac, s.record (.read32 s.params.addrPllAddac s.pllAddac))

/-- `RegWrite32(ADDR_CLOCK_SEL, v)` (R41). -/
def State.regWrite32 (v : Word) (s : State) : State :=
  (s.setClockSel v).record (.write32 s.params.addrClockSel v)

/-- The first of `ReadCounter`'s two reads (R69). -/
def State.readFirst (s : State) : Half × State := s.regRead16 (firstHalf s.params.readOrder)

/-- The second of `ReadCounter`'s two reads, and the composition with the half read first (R69). -/
def State.readSecond (first : Half) (s : State) : Word × State :=
  let r := s.regRead16 (secondHalf s.params.readOrder)
  (composeRead s.params.readOrder first r.1, r.2)

/-- `RateRead()` (R80): `none` is where it raises `Fault(RATE_UNINIT)`. -/
def State.rateRead (s : State) : Option Word :=
  if s.rateValid then some s.rate
  else
    match s.params.ratePolicy with
    | .fault => none
    | .zero => some 0#32

/-- What the block does in its move (R55). -/
inductive Fetched
  /-- Run the next phase of this operation. -/
  | run (i : Instr)
  /-- The word at the port is illegal (R60). -/
  | illegal (w : Word)
  /-- Nothing: IDLE with no command at the port, or FAULTED. -/
  | wait
deriving DecidableEq, Repr

/-- The block's next move: the operation in progress, or the command at the port if it is IDLE; a FAULTED
block accepts nothing (R55, R99). -/
def State.fetch (s : State) : Fetched :=
  match s.opstate with
  | .busy b => .run b.instr
  | .faulted => .wait
  | .idle =>
    match s.port with
    | none => .wait
    | some c =>
      match decode c with
      | .ok i => .run i
      | .error _ => .illegal c.cmd

/-- The state with a command at the port of an IDLE block whose move it is (log 10). -/
def State.presentNow (c : Command) (s : State) : State :=
  { s with port := some c, opstate := .idle, fault := .none, turn := .block }

end Sys2Proof.Machine
end

