-- ==== Sys2Proof/Machine/Clock.lean ====
section
/-! DEFINITION. The Clock Configurator: CLOCK_SET and READ_RATE (41_clock_config). -/

namespace Sys2Proof.Machine

/-- One phase of CLOCK_SET (R74): step (a) reads PLL_ADDAC and stores the rate, step (b) writes CLOCK_SEL. -/
def clockSetPhase (m : ClockMode) (en : Bool) (ph : SetPhase) (s : State) : State :=
  match ph with
  | .start =>
    (s.regRead32.2.configure (rateOf s.params s.regRead32.1)).continueAs (.clockSet m en .write)
  | .write => (s.regWrite32 (selValue s.params.modeCode m en)).complete

/-- CLOCK_SET m, en (R74). Where the block runs another operation or is FAULTED, the command waits (R55). -/
def execClockSet (m : ClockMode) (en : Bool) (s : State) : Host.Outcome State Fault Refusal :=
  match (s.engage (.clockSet m en)).opstate with
  | .busy (.clockSet m' en' ph) =>
    if m' = m ∧ en' = en then .next (clockSetPhase m en ph (s.engage (.clockSet m en))).yield
    else .next s.yield
  | _ => .next s.yield

/-- READ_RATE's one phase (R80). -/
def readRatePhase (s : State) : State :=
  match s.rateRead with
  | none => s.raiseRateUninit .readRate
  | some r => (s.setResult r).complete

/-- READ_RATE (R80). Where the block runs another operation or is FAULTED, the command waits (R55). -/
def execReadRate (s : State) : Host.Outcome State Fault Refusal :=
  match (s.engage .readRate).opstate with
  | .busy .readRate => .next (readRatePhase (s.engage .readRate)).yield
  | _ => .next s.yield

end Sys2Proof.Machine
end

