-- ==== Sys2Proof/Machine/Counter.lean ====
section
/-! DEFINITION. The Counter Reader: READ_COUNTER (40_counter_reader). -/

namespace Sys2Proof.Machine

/-- One phase of READ_COUNTER (R69, R70). -/
def readCounterPhase (ph : ReadPhase) (s : State) : State :=
  match ph with
  | .start => s.readFirst.2.continueAs (.readCounter (.second s.readFirst.1))
  | .second first => ((s.readSecond first).2.setResult (s.readSecond first).1).complete

/-- READ_COUNTER (R70). Where the block runs another operation or is FAULTED, the command waits (R55). -/
def execReadCounter (s : State) : Host.Outcome State Fault Refusal :=
  match (s.engage .readCounter).opstate with
  | .busy (.readCounter ph) => .next (readCounterPhase ph (s.engage .readCounter)).yield
  | _ => .next s.yield

end Sys2Proof.Machine
end

