-- ==== Sys2Proof/Machine/Delay.lean ====
section
/-! DEFINITION. The Delay Primitives: DELAY and UDELAY (43_delay), "identical structure" but for the test
that ends the loop (R91). -/

namespace Sys2Proof.Machine

/-- One phase of a delay: the capture read and the threshold, then a re-read of the counter and the test
after each re-read (R89, R91, R93). `i` is the operation, `arg` its operand, `wrap` its BUSY states and
`ends` its test of `t1`, `wt`, `t2`. -/
def delayPhase (i : Instr) (arg : Word) (wrap : DelayPhase → Busy)
    (ends : Word → Word → Word → Bool) (ph : DelayPhase) (s : State) : State :=
  match ph with
  | .start => s.readFirst.2.continueAs (wrap (.second s.readFirst.1))
  | .second first =>
    match s.rateRead with
    | none => (s.readSecond first).2.raiseRateUninit i
    | some r =>
      (s.readSecond first).2.continueAs (wrap (.poll (s.readSecond first).1 (threshold arg r)))
  | .poll t1 wt => s.readFirst.2.continueAs (wrap (.pollSecond t1 wt s.readFirst.1))
  | .pollSecond t1 wt first =>
    match ends t1 wt (s.readSecond first).1 with
    | true => (s.readSecond first).2.complete
    | false => (s.readSecond first).2.continueAs (wrap (.poll t1 wt))

/-- DELAY msec (R89). Where the block runs another operation or is FAULTED, the command waits (R55). -/
def execDelay (msec : Word) (s : State) : Host.Outcome State Fault Refusal :=
  match (s.engage (.delay msec)).opstate with
  | .busy (.delay msec' ph) =>
    if msec' = msec then
      .next (delayPhase (.delay msec) msec (.delay msec) delayEnds ph (s.engage (.delay msec))).yield
    else .next s.yield
  | _ => .next s.yield

/-- UDELAY usec (R91). Where the block runs another operation or is FAULTED, the command waits (R55). -/
def execUdelay (usec : Word) (s : State) : Host.Outcome State Fault Refusal :=
  match (s.engage (.udelay usec)).opstate with
  | .busy (.udelay usec' ph) =>
    if usec' = usec then
      .next (delayPhase (.udelay usec) usec (.udelay usec) udelayEnds ph
        (s.engage (.udelay usec))).yield
    else .next s.yield
  | _ => .next s.yield

end Sys2Proof.Machine
end

