-- ==== Sys2Proof/Machine/Elapsed.lean ====
section
/-! DEFINITION. The Elapsed-Time Evaluator: IS_AFTER_MSECS (42_elapsed_compare). -/

namespace Sys2Proof.Machine

/-- One phase of IS_AFTER_MSECS (R83): the rate check stands before any counter read. -/
def isAfterPhase (t0 msecs : Word) (ph : ComparePhase) (s : State) : State :=
  match ph with
  | .start =>
    match s.rateRead with
    | none => s.raiseRateUninit (.isAfterMsecs t0 msecs)
    | some r => s.readFirst.2.continueAs (.isAfterMsecs t0 msecs (.second s.readFirst.1 r))
  | .second first r =>
    ((s.readSecond first).2.setResult
      (boolWord (isAfter (s.readSecond first).1 t0 msecs r))).complete

/-- IS_AFTER_MSECS t0, msecs (R83). Where the block runs another operation or is FAULTED, the command waits
(R55). -/
def execIsAfterMsecs (t0 msecs : Word) (s : State) : Host.Outcome State Fault Refusal :=
  match (s.engage (.isAfterMsecs t0 msecs)).opstate with
  | .busy (.isAfterMsecs t0' msecs' ph) =>
    if t0' = t0 ∧ msecs' = msecs then
      .next (isAfterPhase t0 msecs ph (s.engage (.isAfterMsecs t0 msecs))).yield
    else .next s.yield
  | _ => .next s.yield

end Sys2Proof.Machine
end

