-- ==== Sys2Proof/Machine/Dispatch.lean ====
section
/-! DEFINITION. One arm per operation: the meaning of the next phase of an operation in a state. -/

namespace Sys2Proof.Machine

def exec (i : Instr) (s : State) : Host.Outcome State Fault Refusal :=
  match i with
  | .readCounter => Sys2Proof.Machine.execReadCounter s
  | .clockSet m en => Sys2Proof.Machine.execClockSet m en s
  | .readRate => Sys2Proof.Machine.execReadRate s
  | .isAfterMsecs t0 msecs => Sys2Proof.Machine.execIsAfterMsecs t0 msecs s
  | .delay msec => Sys2Proof.Machine.execDelay msec s
  | .udelay usec => Sys2Proof.Machine.execUdelay usec s

end Sys2Proof.Machine
end

