-- ==== Sys2Proof/Machine/Environment.lean ====
section
/-! DEFINITION. The environment's move (10_state R21): the counter, the PLL register, the external reset of
60_exceptions R106 and the caller's presentation of a command (30_encoding R55). -/

namespace Sys2Proof.Machine

/-- The move the environment makes next: the oldest scripted one, else a free one (log 2). -/
def State.nextMove (s : State) : EnvMove :=
  match s.env with
  | [] => Config.freeMove s.draws
  | m :: _ => m

/-- That move is taken. -/
def State.takeMove (s : State) : State :=
  match s.env with
  | [] => { s with draws := s.draws + 1 }
  | _ :: rest => { s with env := rest }

/-- `N <- N + k; PLL_ADDAC <- p` (R21); a command presented while another waits is not taken (log 8). -/
def State.advance (m : EnvMove) (s : State) : State :=
  { s with
    n := s.n + m.ticks
    pllAddac := m.pllAddac
    port := s.port.or m.present
    turn := .block }

/-- `EnvAdvance()` with the move `m` (R21): a reset, if there is one, overrides the rest (R102, R116). -/
def State.applyMove (m : EnvMove) (s : State) : State :=
  match m.reset with
  | none => s.advance m
  | some d => s.resetWith d m.present

/-- `EnvAdvance()` (R21). -/
def State.envAdvance (s : State) : State := s.takeMove.applyMove s.nextMove

end Sys2Proof.Machine
end

