-- ==== Sys2Proof/Machine/Step.lean ====
section
/-! DEFINITION. One step: one move of the agent whose turn it is (00_scope R6, R11; log 1). -/

namespace Sys2Proof.Machine

/-- One step of the machine. The block's move is one phase of an operation (R33), the fault of an illegal
word (R60), or nothing; the environment's is `EnvAdvance` (R21). -/
def step (s : State) : Host.Outcome State Fault Refusal :=
  match s.turn with
  | .environment => .next s.envAdvance
  | .block =>
    match s.fetch with
    | .run i => exec i s
    | .illegal w => .next (s.raiseIllegal w).yield
    | .wait => .next s.yield

/-- `s` with the command whose bits are `w` at the command port, the block IDLE and its move next, so that the
next step accepts it (R55; log 10). -/
def State.withFetchWord (s : State) (nbits w : Nat) : State :=
  s.presentNow (Command.ofBits nbits w)

end Sys2Proof.Machine
end

