-- ==== Sys2Proof/Safety.lean ====
section
/-! DEFINITION. What claims about the block are stated in: runs and their premises, the operating envelope, torn
and exact reads, staleness, and the invariant every step keeps. -/

namespace Sys2Proof.Machine

/-- A run: every state's step answers the next one. -/
def IsRun (r : Nat → State) : Prop := ∀ i, step (r i) = .next (r (i + 1))

/-- The first `k` steps of a run, up to the state `r k`. -/
def IsRunTo (k : Nat) (r : Nat → State) : Prop := ∀ i, i < k → step (r i) = .next (r (i + 1))

/-- `FREE_RUNNING` (R22): a premise about a run, which no rule of the model enforces (log 2). -/
def FreeRunning (r : Nat → State) : Prop := ∀ bound, ∃ i, bound < (r i).n

/-- A state the model vouches for (R99: "Every claim about a run takes FAULT = NONE at the end"). -/
def State.Vouched (s : State) : Prop := s.fault = .none

/-- The move about to be made is an external reset (R106). -/
def State.ResetComing (s : State) : Prop :=
  s.turn = .environment ∧ s.nextMove.reset ≠ none

/-- No external reset comes in the first `k` steps. -/
def NoResetTo (k : Nat) (r : Nat → State) : Prop := ∀ i, i < k → ¬ (r i).ResetComing

/-- No carry out of bit 15 between the two samples (R71). -/
def ExactRead (na nb : Nat) : Prop := na / 2 ^ 16 = nb / 2 ^ 16

/-- `c`, the number of carries out of bit 15 between the two samples (R72). -/
def carries (na nb : Nat) : Nat := nb / 2 ^ 16 - na / 2 ^ 16

/-- The operating envelope (R124). -/
def InEnvelope (earlier later : Nat) : Prop := earlier ≤ later ∧ later - earlier < 2 ^ 32

/-- `STALE` (R82): no operation reads it. -/
def State.Stale (s : State) : Prop :=
  s.rateValid = true ∧ s.rate ≠ rateOf s.params s.pllAddac

/-- A DELAY in POLL with start `t1` and threshold `wt`: between polls, or between a poll's two reads. -/
def State.DelayPolling (s : State) (msec t1 wt : Word) : Prop :=
  s.opstate = .busy (.delay msec (.poll t1 wt)) ∨
    ∃ first, s.opstate = .busy (.delay msec (.pollSecond t1 wt first))

/-- The same of a UDELAY. -/
def State.UdelayPolling (s : State) (usec t1 wt : Word) : Prop :=
  s.opstate = .busy (.udelay usec (.poll t1 wt)) ∨
    ∃ first, s.opstate = .busy (.udelay usec (.pollSecond t1 wt first))

/-- The block is about to make the second read of a poll, and the value it composes meets the loop's
condition: a poll that falls in the window, the premise `POLL_HITS` of R95 at one state. -/
def State.pollHits (s : State) : Bool :=
  match s.turn, s.opstate with
  | .block, .busy (.delay _ (.pollSecond t1 wt first)) => delayEnds t1 wt (s.readSecond first).1
  | .block, .busy (.udelay _ (.pollSecond t1 wt first)) => udelayEnds t1 wt (s.readSecond first).1
  | _, _ => false

/-- What the progress of an operation holds agrees with the state: the rate IS_AFTER_MSECS read is still
what `RateRead` gives, and a delay's `wt` is its operand times that rate. -/
def State.progressOk (s : State) : Busy → Prop
  | .readCounter _ => True
  | .clockSet _ _ _ => True
  | .readRate => True
  | .isAfterMsecs _ _ .start => True
  | .isAfterMsecs _ _ (.second _ r) => s.rateRead = some r
  | .delay x ph => ∀ t1 wt, ph.times = some (t1, wt) → ∃ r, s.rateRead = some r ∧ wt = x * r
  | .udelay x ph => ∀ t1 wt, ph.times = some (t1, wt) → ∃ r, s.rateRead = some r ∧ wt = x * r

/-- The invariant: the parameters meet R7 and R38; FAULT and OPSTATE agree (R32); a configured RATE is in
its legal range (R23); the operation in progress holds what it should. -/
structure State.Inv (s : State) : Prop where
  params_wf : s.params.wf = true
  fault_iff : s.fault ≠ .none ↔ s.opstate = .faulted
  rate_range : s.rateValid = true → s.rate.toNat < 2 ^ (s.params.divWidth - 1)
  progress : ∀ b, s.opstate = .busy b → s.progressOk b

end Sys2Proof.Machine
end

