-- ==== Sys2Proof/Certificates/Slice0/Obligations.lean ====
section
/-! DEFINITION. The statements about the block, for the provers. Each docstring names the rule of the spec it
formalises, and the log entry of a clause that is the model's own choice. -/

open Sys2Proof Sys2Proof.Machine

/-! ## Encoding (30_encoding) -/

/-- Decoding what the encoder writes gives the operation back, with every operand at every value (R56 to
R59; that ignored operand words are written as zero is log 15). -/
def Obligations.DecodeOfEncodeIsTheInstruction : Prop := ∀ i : Instr, decode (encode i) = .ok i

/-- The encoder gives back the command a decoded operation came from: its command word, and every operand word
the operation uses; an operand word it ignores is written as zero (R57, R59; that it is zero is the model's
choice, log 15). -/
def Obligations.EncodeOfDecodeIsTheCommand : Prop :=
  ∀ (c : Command) (i : Instr), decode c = .ok i →
    (encode i).cmd = c.cmd ∧
    (∀ t0 msecs, i = .isAfterMsecs t0 msecs →
      c.a = t0 ∧ c.b = msecs ∧ (encode i).a = c.a ∧ (encode i).b = c.b) ∧
    (∀ x, i = .delay x ∨ i = .udelay x → c.a = x ∧ (encode i).a = c.a ∧ (encode i).b = 0#32) ∧
    ((i = .readCounter ∨ i = .readRate ∨ ∃ m en, i = .clockSet m en) →
      (encode i).a = 0#32 ∧ (encode i).b = 0#32)

/-- R59: "An ignored operand word may hold any value, and it has no effect": two commands of one command
word decode alike if they agree on the operand words the operation uses. -/
def Obligations.IgnoredOperandWordsHaveNoEffect : Prop :=
  ∀ (w a b a' b' : Word) (i : Instr), decode ⟨w, a, b⟩ = .ok i →
    ((i = .readCounter ∨ i = .readRate ∨ ∃ m en, i = .clockSet m en) → decode ⟨w, a', b'⟩ = .ok i) ∧
    ((∃ x, i = .delay x ∨ i = .udelay x) → decode ⟨w, a, b'⟩ = .ok i)

/-- The decoder rejects exactly the words R60 calls illegal, whatever the operand words. -/
def Obligations.DecoderRejectsExactlyTheIllegalWords : Prop :=
  ∀ c : Command,
    (∃ e, decode c = .error e) ↔
      (c.cmd.toNat % 8 = 6 ∨ c.cmd.toNat % 8 = 7) ∨ c.cmd.toNat / 64 ≠ 0 ∨
        (c.cmd.toNat % 8 ≠ 1 ∧ c.cmd.toNat / 8 % 8 ≠ 0)

/-- The decoder reads the opcode table: a word decodes to an operation exactly where it matches that
operation's row (R57, R61). -/
def Obligations.DecoderAgreesWithTheOpcodeTable : Prop :=
  ∀ c : Command,
    (∀ i, decode c = .ok i →
      ∃ r ∈ opcodeTable, r.mnemonic = i.mnemonic ∧ c.cmd &&& r.mask = r.pattern) ∧
    (∀ r ∈ opcodeTable, c.cmd &&& r.mask = r.pattern →
      ∃ i, decode c = .ok i ∧ i.mnemonic = r.mnemonic)

/-- A few words written out from R56 to R58 decode to the operations they stand for. -/
def Obligations.WrittenOutWordsDecode : Prop :=
  decode ⟨0b00000000000000000000000000000000#32, 7#32, 9#32⟩ = .ok .readCounter ∧
  decode ⟨0b00000000000000000000000000110001#32, 7#32, 9#32⟩ = .ok (.clockSet .clk40_44 true) ∧
  decode ⟨0b00000000000000000000000000011001#32, 7#32, 9#32⟩ = .ok (.clockSet .clk80_88 false) ∧
  decode ⟨0b00000000000000000000000000000010#32, 7#32, 9#32⟩ = .ok .readRate ∧
  decode ⟨0b00000000000000000000000000000011#32, 7#32, 9#32⟩ = .ok (.isAfterMsecs 7#32 9#32) ∧
  decode ⟨0b00000000000000000000000000000100#32, 7#32, 9#32⟩ = .ok (.delay 7#32) ∧
  decode ⟨0b00000000000000000000000000000101#32, 7#32, 9#32⟩ = .ok (.udelay 7#32)

/-- R64: the composed count has `hi` in bits 31:16 and `lo` in bits 15:0. -/
def Obligations.ComposePlacesTheHalves : Prop :=
  ∀ hi lo : Half,
    compose hi lo = (hi.setWidth 32 <<< 16) ||| lo.setWidth 32 ∧
    (compose hi lo).extractLsb' 16 16 = hi ∧ (compose hi lo).extractLsb' 0 16 = lo

/-- R62: the clock-select value is `0x70 | MODE_CODE(m)` or `0x600 | MODE_CODE(m)`, for any four codes; with
the default codes the eight values are those of the table, and `|` equals `+`. -/
def Obligations.SelectValueIsBaseOrModeCode : Prop :=
  (∀ (c : ModeCodes) (m : ClockMode),
    selValue c m true = 0x70#32 ||| modeCodeOf c m ∧
    selValue c m false = 0x600#32 ||| modeCodeOf c m) ∧
  (∀ m : ClockMode,
    selValue Config.params.modeCode m true = 0x70#32 + m.index.setWidth 32 ∧
    selValue Config.params.modeCode m false = 0x600#32 + m.index.setWidth 32)

/-! ## The step (30_encoding R55, 10_state R21) -/

/-- R55: an IDLE block takes the command at its port: the step is `exec` of what the command decodes to; a
BUSY block goes on with the operation in progress: the step is `exec` of that. That it is the block's turn
is the model's way of interleaving (log 1). -/
def Obligations.StepRunsTheDecodedInstruction : Prop :=
  (∀ (s : State) (c : Command) (i : Instr),
    s.turn = .block → s.opstate = .idle → s.port = some c → decode c = .ok i → step s = exec i s) ∧
  (∀ (s : State) (b : Busy), s.turn = .block → s.opstate = .busy b → step s = exec b.instr s)

/-- R55: on acceptance `OPSTATE <- BUSY(op, 0, -, -)` and the pseudocode is performed: `exec` of an operation
in an IDLE block is `exec` in the block that has just accepted it. -/
def Obligations.AcceptanceStartsTheOperation : Prop :=
  ∀ (i : Instr) (s : State), s.opstate = .idle →
    exec i s = exec i { s with port := none, opstate := .busy (Busy.start i) }

/-- R55: a command presented while the block is FAULTED, or BUSY with another operation, is not accepted and
waits: `exec` changes nothing but whose move is next. -/
def Obligations.CommandWaitsWhileBusyOrFaulted : Prop :=
  ∀ (i : Instr) (s : State),
    (s.opstate = .faulted ∨ ∃ b, s.opstate = .busy b ∧ b.instr ≠ i) →
    exec i s = .next { s with turn := .environment }

/-- R55, R94: the port keeps its command through every step of a BUSY or FAULTED block and through every
environment move without a reset. That a second command presented meanwhile leaves the waiting one in place is
the model's one-slot port (log 8, DESIGN CHOICE). -/
def Obligations.WaitingCommandStaysAtThePort : Prop :=
  ∀ (s t : State) (c : Command), s.port = some c → step s = .next t → ¬ s.ResetComing →
    s.opstate ≠ .idle ∨ s.turn = .environment → t.port = some c

/-- R60, R99, R100: an illegal word at the port of an IDLE block raises ILLEGAL_COMMAND on acceptance, with
the word in FAULT_CMD; no register is read or written and nothing else changes but that the command has left
the port and the block's move is over (log 1, log 16). -/
def Obligations.IllegalCommandFaultsOnAcceptance : Prop :=
  ∀ (s : State) (c : Command), s.turn = .block → s.opstate = .idle → s.port = some c →
    ((c.cmd.toNat % 8 = 6 ∨ c.cmd.toNat % 8 = 7) ∨ c.cmd.toNat / 64 ≠ 0 ∨
      (c.cmd.toNat % 8 ≠ 1 ∧ c.cmd.toNat / 8 % 8 ≠ 0)) →
    step s = .next { s with
      fault := .illegalCommand
      faultCmd := c.cmd
      opstate := .faulted
      port := none
      turn := .environment }

/-- R118: an IDLE block with no command at its port does nothing and waits. -/
def Obligations.IdleBlockWaitsForACommand : Prop :=
  ∀ s : State, s.turn = .block → s.opstate = .idle → s.port = none →
    step s = .next { s with turn := .environment }

/-- R47, R98: no access fails and no operation reports failure: every step of every state answers a next
state. -/
def Obligations.EveryStepAnswersNext : Prop := ∀ s : State, ∃ t, step s = .next t

/-- R21: one `EnvAdvance` without a reset adds `k` ticks to N, sets PLL_ADDAC to `p`, and changes nothing else
of the spec's state (the port and the script are the model's own: log 2, log 8). -/
def Obligations.EnvironmentMoveAddsTicksAndSetsPll : Prop :=
  ∀ s : State, s.turn = .environment → s.nextMove.reset = none →
    ∃ t, step s = .next t ∧
      t.n = s.n + s.nextMove.ticks ∧ t.pllAddac = s.nextMove.pllAddac ∧
      t.clockSel = s.clockSel ∧ t.rate = s.rate ∧ t.rateValid = s.rateValid ∧
      t.opstate = s.opstate ∧ t.result = s.result ∧ t.fault = s.fault ∧ t.faultCmd = s.faultCmd ∧
      t.params = s.params ∧ t.bus = s.bus ∧ t.port = s.port.or s.nextMove.present ∧ t.turn = .block

/-- R17, R25: no move of the block writes N (so CNT) or PLL_ADDAC, whatever it runs. -/
def Obligations.BlockNeverWritesCounterOrPll : Prop :=
  ∀ s t : State, s.turn = .block → step s = .next t → t.n = s.n ∧ t.pllAddac = s.pllAddac

/-- R19: along a run, of any length, in which no external reset comes, N never decreases. -/
def Obligations.TrueCountNeverDecreases : Prop :=
  ∀ (r : Nat → State) (k : Nat), IsRunTo k r → NoResetTo k r →
    ∀ i j, i ≤ j → j ≤ k → (r i).n ≤ (r j).n

/-! ## The register bus (20_memory) -/

/-- R39: a half read gives the half of `N mod 2^32` at its instant, 16 bits; with R46, nothing but the model's
record of the bus (log 12) changes. -/
def Obligations.HalfReadSamplesTheCounter : Prop :=
  ∀ s : State,
    ((s.regRead16 .high).1.toNat = s.n % 2 ^ 32 / 2 ^ 16 ∧
      (s.regRead16 .low).1.toNat = s.n % 2 ^ 32 % 2 ^ 16) ∧
    (∀ h, ∃ a, (s.regRead16 h).2 = { s with bus := a :: s.bus })

/-- R42 with R39 to R41: a step makes at most one access, and it is a 16-bit read of a counter half that gives
its value, a 32-bit read of PLL_ADDAC that gives its value, or a 32-bit write of CLOCK_SEL that stores the value
written; an environment move makes none. That a step holds at most one access, on the block's turn, is log 1;
the record of the bus is log 12. -/
def Obligations.BusCarriesOnlyTheFourAccesses : Prop :=
  ∀ s t : State, step s = .next t →
    t.bus = s.bus ∨
    (s.turn = .block ∧ ∃ a, t.bus = a :: s.bus ∧
      (a = .read16 s.params.addrClockHigh (halfOf .high s.n) ∨
        a = .read16 s.params.addrClockLow (halfOf .low s.n) ∨
        a = .read32 s.params.addrPllAddac s.pllAddac ∨
        a = .write32 s.params.addrClockSel t.clockSel))

/-- R13: the parameters are configuration: no step changes them (that they stand in State is log 5). -/
def Obligations.ParametersNeverChange : Prop :=
  ∀ s t : State, step s = .next t → t.params = s.params

/-! ## The Counter Reader (40_counter_reader) -/

/-- R69, R70: READ_COUNTER, the word 0x00000000, reads the half that READ_ORDER names first and holds it, then
reads the other half, writes the composition to RESULT and is IDLE. Everything else stands. The model's own: the
turn (log 1), the held half in BUSY (log 7), the port emptied (log 8), the record of the bus (log 12). -/
def Obligations.ReadCounterReadsBothHalvesAndComposes : Prop :=
  (∀ a b, decode ⟨0x00000000#32, a, b⟩ = .ok .readCounter) ∧
  ∀ s : State,
    (s.opstate = .idle → s.params.readOrder = .highFirst →
      exec .readCounter s = .next { s with
        port := none
        opstate := .busy (.readCounter (.second (BitVec.ofNat 16 (s.n / 2 ^ 16))))
        bus := .read16 s.params.addrClockHigh (BitVec.ofNat 16 (s.n / 2 ^ 16)) :: s.bus
        turn := .environment }) ∧
    (s.opstate = .idle → s.params.readOrder = .lowFirst →
      exec .readCounter s = .next { s with
        port := none
        opstate := .busy (.readCounter (.second (BitVec.ofNat 16 s.n)))
        bus := .read16 s.params.addrClockLow (BitVec.ofNat 16 s.n) :: s.bus
        turn := .environment }) ∧
    (∀ first, s.opstate = .busy (.readCounter (.second first)) → s.params.readOrder = .highFirst →
      exec .readCounter s = .next { s with
        result := BitVec.ofNat 32 (first.toNat * 2 ^ 16 + s.n % 2 ^ 16)
        opstate := .idle
        bus := .read16 s.params.addrClockLow (BitVec.ofNat 16 s.n) :: s.bus
        turn := .environment }) ∧
    (∀ first, s.opstate = .busy (.readCounter (.second first)) → s.params.readOrder = .lowFirst →
      exec .readCounter s = .next { s with
        result := BitVec.ofNat 32 (s.n / 2 ^ 16 % 2 ^ 16 * 2 ^ 16 + first.toNat)
        opstate := .idle
        bus := .read16 s.params.addrClockHigh (BitVec.ofNat 16 (s.n / 2 ^ 16)) :: s.bus
        turn := .environment })

/-- R71: with no carry out of bit 15 between the samples, the composition is the exact count at the instant of
the CLOCK_LOW read. -/
def Obligations.ExactReadIsTheCountAtTheLowRead : Prop :=
  ∀ na nb : Nat, na ≤ nb → ExactRead na nb →
    composeRead .highFirst (halfOf .high na) (halfOf .low nb) = BitVec.ofNat 32 nb ∧
    composeRead .lowFirst (halfOf .low na) (halfOf .high nb) = BitVec.ofNat 32 na

/-- R72, over the whole operation: READ_COUNTER on an IDLE block, the environment's move of `k` ticks between
its two reads, gives `Nb - c * 2^16` (HIGH_FIRST) or `Na + c * 2^16` (LOW_FIRST) modulo 2^32, with `c` the
number of carries; `c` is at most 1 where fewer than 2^16 ticks pass, and every `k` is admitted. That this takes
three steps is log 1. -/
def Obligations.ReadCounterGivesTheTornValue : Prop :=
  ∀ (s : State) (c : Command), s.turn = .block → s.opstate = .idle → s.port = some c →
    decode c = .ok .readCounter → s.nextMove.reset = none →
    ∃ t, Sys2Proof.core.run 3 s = .next t ∧ t.opstate = .idle ∧
      t.n = s.n + s.nextMove.ticks ∧
      (s.params.readOrder = .highFirst →
        t.result = BitVec.ofNat 32 (t.n - carries s.n t.n * 2 ^ 16)) ∧
      (s.params.readOrder = .lowFirst →
        t.result = BitVec.ofNat 32 (s.n + carries s.n t.n * 2 ^ 16)) ∧
      (s.nextMove.ticks < 2 ^ 16 → carries s.n t.n ≤ 1)

/-! ## The Clock Configurator (41_clock_config) -/

/-- R74 to R77: CLOCK_SET m, en, the word `0x1 | (m << 3) | (en << 5)`, reads PLL_ADDAC once, stores its DIV
field shifted right by one as RATE and sets RATE_VALID, then writes `SelValue(m, en)` to CLOCK_SEL once and is
IDLE; RESULT and everything else stand. The model's own: the turn (log 1), the port emptied (log 8), the record
of the bus (log 12). -/
def Obligations.ClockSetStoresTheRateThenWritesSelect : Prop :=
  ∀ (s : State) (m : ClockMode) (en : Bool),
    (∀ a b, decode ⟨0x1#32 ||| (m.index.setWidth 32 <<< 3) ||| ((if en then 1#32 else 0#32) <<< 5), a, b⟩ =
      .ok (.clockSet m en)) ∧
    (s.opstate = .idle →
      exec (.clockSet m en) s = .next { s with
        port := none
        rate := BitVec.ofNat 32
          (s.pllAddac.toNat / 2 ^ s.params.divLsb % 2 ^ s.params.divWidth / 2)
        rateValid := true
        opstate := .busy (.clockSet m en .write)
        bus := .read32 s.params.addrPllAddac s.pllAddac :: s.bus
        turn := .environment }) ∧
    (s.opstate = .busy (.clockSet m en .write) →
      exec (.clockSet m en) s = .next { s with
        clockSel := (if en then 0x70#32 else 0x600#32) ||| modeCodeOf s.params.modeCode m
        opstate := .idle
        bus := .write32 s.params.addrClockSel
          ((if en then 0x70#32 else 0x600#32) ||| modeCodeOf s.params.modeCode m) :: s.bus
        turn := .environment })

/-- R76, R79: the rate CLOCK_SET stores depends on the sampled PLL_ADDAC alone: not on the mode, the flag, the
old RATE or anything else of the state. -/
def Obligations.StoredRateDependsOnPllAlone : Prop :=
  ∀ (s s' t t' : State) (m m' : ClockMode) (en en' : Bool),
    s.opstate = .idle → s'.opstate = .idle → s.pllAddac = s'.pllAddac → s.params = s'.params →
    exec (.clockSet m en) s = .next t → exec (.clockSet m' en') s' = .next t' →
    t.rate = t'.rate ∧ t.rateValid = true ∧ t'.rateValid = true

/-- R23: the rate of a DIV field lies in `0 .. 2^(PLL_DIV_WIDTH - 1) - 1`, and the bound is met where the
field is all ones and lies within the register. -/
def Obligations.RateLiesInItsLegalRange : Prop :=
  ∀ (p : Params), 1 ≤ p.divWidth → p.divLsb + p.divWidth ≤ 32 →
    (∀ pll : Word, (rateOf p pll).toNat ≤ 2 ^ (p.divWidth - 1) - 1) ∧
    (rateOf p (BitVec.allOnes 32)).toNat = 2 ^ (p.divWidth - 1) - 1

/-- R80: READ_RATE, the word 0x00000002, writes RATE to RESULT; with RATE_VALID = 0 it raises RATE_UNINIT with
its OP value 2 under policy FAULT, and gives 0 under policy ZERO. The model's own: the turn (log 1), the port
emptied (log 8). -/
def Obligations.ReadRateGivesTheRateOrFaults : Prop :=
  (∀ a b, decode ⟨0x00000002#32, a, b⟩ = .ok .readRate) ∧
  ∀ s : State, s.opstate = .idle →
    (s.rateValid = true →
      exec .readRate s = .next { s with
        port := none, result := s.rate, opstate := .idle, turn := .environment }) ∧
    (s.rateValid = false → s.params.ratePolicy = .zero →
      exec .readRate s = .next { s with
        port := none, result := 0#32, opstate := .idle, turn := .environment }) ∧
    (s.rateValid = false → s.params.ratePolicy = .fault →
      exec .readRate s = .next { s with
        port := none, fault := .rateUninit, faultCmd := 2#32, opstate := .faulted,
        turn := .environment })

/-- R81: CLOCK_SET makes the block CONFIGURED with the rate of the PLL value it samples, a reset makes it
UNCONFIGURED, and no other step changes RATE or RATE_VALID. -/
def Obligations.OnlyClockSetAndResetChangeTheRate : Prop :=
  ∀ s t : State, step s = .next t →
    (s.ResetComing → t.rateValid = false) ∧
    (∀ m en, s.turn = .block → s.fetch = .run (.clockSet m en) →
      s.opstate ≠ .busy (.clockSet m en .write) →
      t.rateValid = true ∧ t.rate = rateOf s.params s.pllAddac) ∧
    (¬ s.ResetComing →
      ¬ (s.turn = .block ∧ ∃ m en, s.fetch = .run (.clockSet m en) ∧
          s.opstate ≠ .busy (.clockSet m en .write)) →
      t.rate = s.rate ∧ t.rateValid = s.rateValid)

/-- R77: only a reset and step (b) of a CLOCK_SET change CLOCK_SEL; step (b) makes exactly one 32-bit write, of
`SelValue(m, en)`; every other step without a reset, the environment's move between steps (a) and (b) among
them, keeps CLOCK_SEL. The turn is log 1, the record of the bus log 12. -/
def Obligations.OnlyClockSetWritesClockSelect : Prop :=
  ∀ s t : State, step s = .next t → ¬ s.ResetComing →
    (∀ m en, s.turn = .block → s.opstate = .busy (.clockSet m en .write) →
      t.clockSel = selValue s.params.modeCode m en ∧
      t.bus = .write32 s.params.addrClockSel (selValue s.params.modeCode m en) :: s.bus) ∧
    (¬ (s.turn = .block ∧ ∃ m en, s.opstate = .busy (.clockSet m en .write)) →
      t.clockSel = s.clockSel)

/-! ## The Elapsed-Time Evaluator (42_elapsed_compare) -/

/-- R83: IS_AFTER_MSECS, the word 0x00000003, checks the rate first: a fault comes before any counter read and
records its OP value 3; else it reads both halves of `c`, writes 1 or 0 to RESULT by the comparison, and is
IDLE. The model's own: the turn (log 1), the held half and rate in BUSY (log 7), the port emptied (log 8), the
record of the bus (log 12). -/
def Obligations.IsAfterChecksTheRateThenCompares : Prop :=
  ∀ (s : State) (t0 msecs : Word),
    decode ⟨0x00000003#32, t0, msecs⟩ = .ok (.isAfterMsecs t0 msecs) ∧
    (s.opstate = .idle → s.rateValid = false → s.params.ratePolicy = .fault →
      exec (.isAfterMsecs t0 msecs) s = .next { s with
        port := none, fault := .rateUninit, faultCmd := 3#32, opstate := .faulted,
        turn := .environment }) ∧
    (∀ r, s.opstate = .idle →
      (s.rateValid = true ∧ r = s.rate) ∨
        (s.rateValid = false ∧ s.params.ratePolicy = .zero ∧ r = 0#32) →
      exec (.isAfterMsecs t0 msecs) s = .next { s with
        port := none
        opstate := .busy (.isAfterMsecs t0 msecs
          (.second (halfOf (firstHalf s.params.readOrder) s.n) r))
        bus := .read16 (halfAddr s.params (firstHalf s.params.readOrder))
          (halfOf (firstHalf s.params.readOrder) s.n) :: s.bus
        turn := .environment }) ∧
    (∀ first r c, s.opstate = .busy (.isAfterMsecs t0 msecs (.second first r)) →
      c = composeRead s.params.readOrder first (halfOf (secondHalf s.params.readOrder) s.n) →
      exec (.isAfterMsecs t0 msecs) s = .next { s with
        result := if (2 ^ 32 - t0.toNat + c.toNat) % 2 ^ 32 / 1000 > msecs.toNat * r.toNat % 2 ^ 32
          then 1#32 else 0#32
        opstate := .idle
        bus := .read16 (halfAddr s.params (secondHalf s.params.readOrder))
          (halfOf (secondHalf s.params.readOrder) s.n) :: s.bus
        turn := .environment })

/-- R84, R85: the comparator is the bit-exact formula, and its boundary is strict. -/
def Obligations.ComparatorIsBitExactAndStrict : Prop :=
  ∀ c t0 msecs r : Word,
    (isAfter c t0 msecs r = true ↔
      (2 ^ 32 - t0.toNat + c.toNat) % 2 ^ 32 / 1000 > msecs.toNat * r.toNat % 2 ^ 32) ∧
    ((2 ^ 32 - t0.toNat + c.toNat) % 2 ^ 32 / 1000 = msecs.toNat * r.toNat % 2 ^ 32 →
      isAfter c t0 msecs r = false)

/-- R86, R124: a delta between exact reads at the true counts `N0 <= N1` is `(N1 - N0) mod 2^32`; it is the true
elapsed ticks if and only if fewer than 2^32 have passed, and too small otherwise. -/
def Obligations.DeltaIsExactOnlyInsideTheEnvelope : Prop :=
  ∀ n0 n1 : Nat, n0 ≤ n1 →
    (delta (cntOf n1) (cntOf n0)).toNat = (n1 - n0) % 2 ^ 32 ∧
    ((delta (cntOf n1) (cntOf n0)).toNat = n1 - n0 ↔ InEnvelope n0 n1) ∧
    (¬ InEnvelope n0 n1 → (delta (cntOf n1) (cntOf n0)).toNat < n1 - n0)

/-- R87: where the true product reaches 2^32 the threshold is smaller than it, and an answer 1 can come after
fewer ticks than the true product asks for. -/
def Obligations.ProductOverflowLowersTheThreshold : Prop :=
  (∀ x r : Word, 2 ^ 32 ≤ x.toNat * r.toNat → (threshold x r).toNat < x.toNat * r.toNat) ∧
  threshold 0x10000001#32 16#32 = 16#32 ∧
  ∀ t0 : Word, isAfter (t0 + 17000#32) t0 0x10000001#32 16#32 = true

/-- R88: a threshold of 4294967 or more is exceeded by no delta; a threshold of 0 is exceeded exactly by the
deltas from 1000 up; a comparison of a count with itself is false; and before any CLOCK_SET the rate is 0 under
policy ZERO. -/
def Obligations.ComparatorRangeCorners : Prop :=
  (∀ s : State, s.rateValid = false → s.params.ratePolicy = .zero → s.rateRead = some 0#32) ∧
  ∀ c t0 msecs r : Word,
    (4294967 ≤ msecs.toNat * r.toNat % 2 ^ 32 → isAfter c t0 msecs r = false) ∧
    (msecs.toNat * r.toNat % 2 ^ 32 = 0 →
      (isAfter c t0 msecs r = true ↔ 1000 ≤ (2 ^ 32 - t0.toNat + c.toNat) % 2 ^ 32)) ∧
    isAfter t0 t0 msecs r = false

/-- R83, R84 over the whole operation: IS_AFTER_MSECS on an IDLE, configured block, the environment's move
between its two reads, answers by the count the two reads compose, torn or not, and by the RATE at its start;
for an exact read that count is the one at the CLOCK_LOW read (R71). That this takes three steps is log 1; the
number of accesses is read off the record of the bus (log 12). -/
def Obligations.IsAfterAnswersByTheComposedCount : Prop :=
  ∀ (s : State) (c : Command) (t0 msecs : Word), s.turn = .block → s.opstate = .idle →
    s.port = some c → decode c = .ok (.isAfterMsecs t0 msecs) → s.rateValid = true →
    s.nextMove.reset = none →
    ∃ t, Sys2Proof.core.run 3 s = .next t ∧ t.opstate = .idle ∧ t.rate = s.rate ∧
      t.bus.length = s.bus.length + 2 ∧
      t.result = boolWord (isAfter
        (composeRead s.params.readOrder (halfOf (firstHalf s.params.readOrder) s.n)
          (halfOf (secondHalf s.params.readOrder) (s.n + s.nextMove.ticks))) t0 msecs s.rate) ∧
      (ExactRead s.n (s.n + s.nextMove.ticks) → s.params.readOrder = .highFirst →
        t.result = boolWord (isAfter (cntOf (s.n + s.nextMove.ticks)) t0 msecs s.rate)) ∧
      (ExactRead s.n (s.n + s.nextMove.ticks) → s.params.readOrder = .lowFirst →
        t.result = boolWord (isAfter (cntOf s.n) t0 msecs s.rate)) ∧
      (t.result = 1#32 ∨ t.result = 0#32)

/-! ## The Delay Primitives (43_delay) -/

/-- R89: DELAY, the word 0x00000004, captures `t1` in two half reads, then checks the rate (a fault records its
OP value 4) and enters POLL with `wt = (msec * r) mod 2^32`; each poll re-reads the counter in two half reads
and ends the operation exactly where the quotient of the delta by 1000 reaches `wt`. RESULT is unchanged. The
model's own: the turn (log 1), the held halves in BUSY (log 7), the port emptied (log 8), the record of the bus
(log 12). -/
def Obligations.DelayCapturesThenPolls : Prop :=
  ∀ (s : State) (msec : Word),
    (∀ b, decode ⟨0x00000004#32, msec, b⟩ = .ok (.delay msec)) ∧
    (s.opstate = .idle →
      exec (.delay msec) s = .next { s with
        port := none
        opstate := .busy (.delay msec (.second (halfOf (firstHalf s.params.readOrder) s.n)))
        bus := .read16 (halfAddr s.params (firstHalf s.params.readOrder))
          (halfOf (firstHalf s.params.readOrder) s.n) :: s.bus
        turn := .environment }) ∧
    (∀ first, s.opstate = .busy (.delay msec (.second first)) →
      s.rateValid = false → s.params.ratePolicy = .fault →
      exec (.delay msec) s = .next { s with
        fault := .rateUninit, faultCmd := 4#32, opstate := .faulted
        bus := .read16 (halfAddr s.params (secondHalf s.params.readOrder))
          (halfOf (secondHalf s.params.readOrder) s.n) :: s.bus
        turn := .environment }) ∧
    (∀ first r, s.opstate = .busy (.delay msec (.second first)) →
      (s.rateValid = true ∧ r = s.rate) ∨
        (s.rateValid = false ∧ s.params.ratePolicy = .zero ∧ r = 0#32) →
      exec (.delay msec) s = .next { s with
        opstate := .busy (.delay msec (.poll
          (composeRead s.params.readOrder first (halfOf (secondHalf s.params.readOrder) s.n))
          (BitVec.ofNat 32 (msec.toNat * r.toNat))))
        bus := .read16 (halfAddr s.params (secondHalf s.params.readOrder))
          (halfOf (secondHalf s.params.readOrder) s.n) :: s.bus
        turn := .environment }) ∧
    (∀ t1 wt, s.opstate = .busy (.delay msec (.poll t1 wt)) →
      exec (.delay msec) s = .next { s with
        opstate := .busy (.delay msec
          (.pollSecond t1 wt (halfOf (firstHalf s.params.readOrder) s.n)))
        bus := .read16 (halfAddr s.params (firstHalf s.params.readOrder))
          (halfOf (firstHalf s.params.readOrder) s.n) :: s.bus
        turn := .environment }) ∧
    (∀ t1 wt first t2, s.opstate = .busy (.delay msec (.pollSecond t1 wt first)) →
      t2 = composeRead s.params.readOrder first (halfOf (secondHalf s.params.readOrder) s.n) →
      exec (.delay msec) s = .next { s with
        opstate := if wt.toNat ≤ (2 ^ 32 - t1.toNat + t2.toNat) % 2 ^ 32 / 1000 then .idle
          else .busy (.delay msec (.poll t1 wt))
        bus := .read16 (halfAddr s.params (secondHalf s.params.readOrder))
          (halfOf (secondHalf s.params.readOrder) s.n) :: s.bus
        turn := .environment })

/-- R91: UDELAY is DELAY but that its word is 0x00000005, its test compares the raw delta with `wt`, without the
division by 1000, and that its fault records the OP value 5. The model's own: the turn (log 1), the held halves
in BUSY (log 7), the port emptied (log 8), the record of the bus (log 12). -/
def Obligations.UdelayCapturesThenPolls : Prop :=
  ∀ (s : State) (usec : Word),
    (∀ b, decode ⟨0x00000005#32, usec, b⟩ = .ok (.udelay usec)) ∧
    (s.opstate = .idle →
      exec (.udelay usec) s = .next { s with
        port := none
        opstate := .busy (.udelay usec (.second (halfOf (firstHalf s.params.readOrder) s.n)))
        bus := .read16 (halfAddr s.params (firstHalf s.params.readOrder))
          (halfOf (firstHalf s.params.readOrder) s.n) :: s.bus
        turn := .environment }) ∧
    (∀ first, s.opstate = .busy (.udelay usec (.second first)) →
      s.rateValid = false → s.params.ratePolicy = .fault →
      exec (.udelay usec) s = .next { s with
        fault := .rateUninit, faultCmd := 5#32, opstate := .faulted
        bus := .read16 (halfAddr s.params (secondHalf s.params.readOrder))
          (halfOf (secondHalf s.params.readOrder) s.n) :: s.bus
        turn := .environment }) ∧
    (∀ first r, s.opstate = .busy (.udelay usec (.second first)) →
      (s.rateValid = true ∧ r = s.rate) ∨
        (s.rateValid = false ∧ s.params.ratePolicy = .zero ∧ r = 0#32) →
      exec (.udelay usec) s = .next { s with
        opstate := .busy (.udelay usec (.poll
          (composeRead s.params.readOrder first (halfOf (secondHalf s.params.readOrder) s.n))
          (BitVec.ofNat 32 (usec.toNat * r.toNat))))
        bus := .read16 (halfAddr s.params (secondHalf s.params.readOrder))
          (halfOf (secondHalf s.params.readOrder) s.n) :: s.bus
        turn := .environment }) ∧
    (∀ t1 wt, s.opstate = .busy (.udelay usec (.poll t1 wt)) →
      exec (.udelay usec) s = .next { s with
        opstate := .busy (.udelay usec
          (.pollSecond t1 wt (halfOf (firstHalf s.params.readOrder) s.n)))
        bus := .read16 (halfAddr s.params (firstHalf s.params.readOrder))
          (halfOf (firstHalf s.params.readOrder) s.n) :: s.bus
        turn := .environment }) ∧
    (∀ t1 wt first t2, s.opstate = .busy (.udelay usec (.pollSecond t1 wt first)) →
      t2 = composeRead s.params.readOrder first (halfOf (secondHalf s.params.readOrder) s.n) →
      exec (.udelay usec) s = .next { s with
        opstate := if wt.toNat ≤ (2 ^ 32 - t1.toNat + t2.toNat) % 2 ^ 32 then .idle
          else .busy (.udelay usec (.poll t1 wt))
        bus := .read16 (halfAddr s.params (secondHalf s.params.readOrder))
          (halfOf (secondHalf s.params.readOrder) s.n) :: s.bus
        turn := .environment })

/-- R90, R92: for exact reads inside the envelope, a DELAY poll ends the loop exactly when
`N2 - N1 >= 1000 * ((x * r) mod 2^32)`, a UDELAY poll exactly when `N2 - N1 >= (x * r) mod 2^32`: a thousand
times fewer ticks. -/
def Obligations.PollsEndAtTheTrueTickThreshold : Prop :=
  ∀ (n1 n2 : Nat) (x r : Word), InEnvelope n1 n2 →
    (delayEnds (cntOf n1) (threshold x r) (cntOf n2) = true ↔
      1000 * (x.toNat * r.toNat % 2 ^ 32) ≤ n2 - n1) ∧
    (udelayEnds (cntOf n1) (threshold x r) (cntOf n2) = true ↔
      x.toNat * r.toNat % 2 ^ 32 ≤ n2 - n1)

/-- R94: in POLL only the loop's condition and an external reset end a delay: any other step keeps POLL with
the same `t1` and `wt`; a poll that meets the condition ends it at once. No step of the loop writes RESULT
unless a reset comes. -/
def Obligations.OnlyConditionOrResetEndsADelay : Prop :=
  ∀ (s t : State) (x t1 wt : Word), step s = .next t → ¬ s.ResetComing →
    (s.DelayPolling x t1 wt →
      t.result = s.result ∧
      ((s.pollHits = true ∧ t.opstate = .idle) ∨
        (s.pollHits = false ∧ t.DelayPolling x t1 wt))) ∧
    (s.UdelayPolling x t1 wt →
      t.result = s.result ∧
      ((s.pollHits = true ∧ t.opstate = .idle) ∨
        (s.pollHits = false ∧ t.UdelayPolling x t1 wt)))

/-- R90, R95: along a run without a reset from a DELAY or UDELAY in POLL, the first poll that falls in the window
returns the block to IDLE, and the operation is in POLL until then: termination under the premise POLL_HITS. -/
def Obligations.DelayReturnsAtTheFirstPollInTheWindow : Prop :=
  ∀ (r : Nat → State) (x t1 wt : Word) (k : Nat), IsRunTo (k + 1) r → NoResetTo (k + 1) r →
    (r k).pollHits = true → (∀ i, i < k → (r i).pollHits = false) →
    ((r 0).DelayPolling x t1 wt →
      (∀ i, i ≤ k → (r i).DelayPolling x t1 wt) ∧ (r (k + 1)).opstate = .idle) ∧
    ((r 0).UdelayPolling x t1 wt →
      (∀ i, i ≤ k → (r i).UdelayPolling x t1 wt) ∧ (r (k + 1)).opstate = .idle)

/-- R95: a DELAY whose threshold is above 4294967 never returns: however long a run without a reset is, every
state of it is in POLL, whatever the counter does. -/
def Obligations.UnreachableDelayHangs : Prop :=
  ∀ (r : Nat → State) (msec t1 wt : Word) (k : Nat), IsRunTo k r → NoResetTo k r →
    (r 0).DelayPolling msec t1 wt → 4294967 < wt.toNat → ∀ i, i ≤ k → (r i).DelayPolling msec t1 wt

/-- R95: which deltas end a loop: for DELAY those from `1000 * wt` up, so none above 4294967 and always at least
296 otherwise; for UDELAY those from `wt` up, so every threshold is reachable. -/
def Obligations.DelayWindows : Prop :=
  ∀ t1 wt : Word,
    (∀ t2, delayEnds t1 wt t2 = true ↔ 1000 * wt.toNat ≤ (2 ^ 32 - t1.toNat + t2.toNat) % 2 ^ 32) ∧
    (∀ t2, udelayEnds t1 wt t2 = true ↔ wt.toNat ≤ (2 ^ 32 - t1.toNat + t2.toNat) % 2 ^ 32) ∧
    ((∃ t2, delayEnds t1 wt t2 = true) ↔ wt.toNat ≤ 4294967) ∧
    (wt.toNat ≤ 4294967 → 296 ≤ 2 ^ 32 - 1000 * wt.toNat) ∧
    (∃ t2, udelayEnds t1 wt t2 = true)

/-- R93, R128: a delay of threshold 0 performs one capture read and one re-read, four half reads, and returns,
whatever the three environment moves between them are, scripted or free, but for a reset; this is also what an
unconfigured delay does under policy ZERO. That this takes seven steps is log 1, the moves are log 2, and the
number of accesses is read off the record of the bus (log 12). -/
def Obligations.ZeroThresholdDelayReadsTwiceAndReturns : Prop :=
  ∀ (r : Nat → State) (c : Command) (x rate : Word), IsRunTo 7 r → NoResetTo 7 r →
    (r 0).turn = .block → (r 0).opstate = .idle → (r 0).port = some c →
    decode c = .ok (.delay x) ∨ decode c = .ok (.udelay x) →
    ((r 0).rateValid = true ∧ rate = (r 0).rate) ∨
      ((r 0).rateValid = false ∧ (r 0).params.ratePolicy = .zero ∧ rate = 0#32) →
    x.toNat * rate.toNat % 2 ^ 32 = 0 →
    Sys2Proof.core.run 7 (r 0) = .next (r 7) ∧ (r 7).opstate = .idle ∧ (r 7).fault = (r 0).fault ∧
      (r 7).result = (r 0).result ∧
      (r 7).n = (r 0).n + (r 1).nextMove.ticks + (r 3).nextMove.ticks + (r 5).nextMove.ticks ∧
      (r 7).bus.length = (r 0).bus.length + 4

/-- R96: the torn poll of the spec's example (high half at 0x0001FFF8, low half at 0x00020002) gives 0x00010002;
against the exact start 0x0001FFF0 it ends DELAY for every `wt` up to 4294901 and UDELAY for every `wt` up to
0xFFFF0012, and for no other. -/
def Obligations.TornPollEndsADelayEarly : Prop :=
  composeRead .highFirst (halfOf .high 0x0001FFF8) (halfOf .low 0x00020002) = 0x00010002#32 ∧
  ∀ wt : Word,
    (delayEnds 0x0001FFF0#32 wt 0x00010002#32 = true ↔ wt.toNat ≤ 4294901) ∧
    (udelayEnds 0x0001FFF0#32 wt 0x00010002#32 = true ↔ wt.toNat ≤ 0xFFFF0012)

/-! ## Faults and reset (60_exceptions, 70_reset_and_hazards) -/

/-- R99 to R103: a step of the block that raises a fault raises ILLEGAL_COMMAND for a word the decoder rejects,
or RATE_UNINIT in one of the four readers of the rate while RATE_VALID = 0 under policy FAULT, recording its OP
value; it is precise: no other state of the spec changes, and OPSTATE is FAULTED. The turn is log 1; that
FAULT_CMD is written for an illegal word too is log 16; that no access was made is read off the record of the
bus (log 12). -/
def Obligations.RaisedFaultIsNamedAndPrecise : Prop :=
  ∀ s t : State, s.fault = .none → step s = .next t → t.fault ≠ .none →
    s.turn = .block ∧ t.opstate = .faulted ∧
    (t.n = s.n ∧ t.pllAddac = s.pllAddac ∧ t.clockSel = s.clockSel ∧ t.rate = s.rate ∧
      t.rateValid = s.rateValid ∧ t.result = s.result ∧ t.params = s.params) ∧
    ((t.fault = .illegalCommand ∧ t.bus = s.bus ∧
        ∃ c e, s.port = some c ∧ decode c = .error e ∧ t.faultCmd = c.cmd) ∨
      (t.fault = .rateUninit ∧ s.rateValid = false ∧ s.params.ratePolicy = .fault ∧
        ∃ i, s.fetch = .run i ∧ t.faultCmd.toNat = i.op.toNat ∧ 2 ≤ i.op.toNat ∧ i.op.toNat ≤ 5))

/-- R55, R99, R104: a FAULTED block stays FAULTED with the fault it has, accepts no command and touches no
register, until a reset. The turn is log 1, the one-slot port log 8, the record of the bus log 12. -/
def Obligations.OnlyResetLeavesFaulted : Prop :=
  ∀ s t : State, s.opstate = .faulted → step s = .next t → ¬ s.ResetComing →
    t.opstate = .faulted ∧ t.fault = s.fault ∧ t.faultCmd = s.faultCmd ∧ t.rate = s.rate ∧
    t.rateValid = s.rateValid ∧ t.clockSel = s.clockSel ∧ t.result = s.result ∧ t.bus = s.bus ∧
    (s.turn = .block → t.port = s.port)

/-- R116 with R36: an external reset, at whatever point of whatever operation it comes, leaves the state of R36:
OPSTATE IDLE, FAULT NONE, RATE_VALID 0, RATE 0 under policy ZERO, and every value R36 calls "any" as the
environment draws it (log 4); no bus access is made (the record is log 12). What then waits at the port is the
caller's (log 9). -/
def Obligations.ExternalResetGivesTheResetState : Prop :=
  ∀ (s : State) (d : ResetDraw), s.turn = .environment → s.nextMove.reset = some d →
    ∃ t, step s = .next t ∧
      t.opstate = .idle ∧ t.fault = .none ∧ t.rateValid = false ∧
      t.n = d.n ∧ t.pllAddac = d.pllAddac ∧ t.clockSel = d.clockSel ∧ t.result = d.result ∧
      t.faultCmd = d.faultCmd ∧
      (s.params.ratePolicy = .fault → t.rate = d.rate) ∧
      (s.params.ratePolicy = .zero → t.rate = 0#32) ∧
      t.bus = s.bus ∧ t.params = s.params

/-- R36: after power-on RATE_VALID is 0, OPSTATE is IDLE and FAULT is NONE. (The values that R36 leaves open are
the model's choice, log 3, and are not stated.) -/
def Obligations.PowerOnStateIsIdleUnconfiguredUnfaulted : Prop :=
  State.reset.rateValid = false ∧ State.reset.opstate = .idle ∧ State.reset.fault = .none

/-! ## The whole machine (10_state) -/

/-- R35: which state an operation's `exec` may change, in any phase: N and PLL_ADDAC never; CLOCK_SEL, RATE and
RATE_VALID by CLOCK_SET only; RESULT by READ_COUNTER, READ_RATE and IS_AFTER_MSECS only; FAULT and FAULT_CMD by
the four readers of the rate only; the model's own parameters, script and draw count never, and the port only as
an IDLE block accepts (log 8). -/
def Obligations.OperationsTouchOnlyTheMarkedState : Prop :=
  ∀ (i : Instr) (s t : State), exec i s = .next t →
    (t.n = s.n ∧ t.pllAddac = s.pllAddac ∧ t.params = s.params ∧ t.env = s.env ∧ t.draws = s.draws) ∧
    ((∀ m en, i ≠ .clockSet m en) →
      t.clockSel = s.clockSel ∧ t.rate = s.rate ∧ t.rateValid = s.rateValid) ∧
    ((i ≠ .readCounter ∧ i ≠ .readRate ∧ ∀ t0 msecs, i ≠ .isAfterMsecs t0 msecs) →
      t.result = s.result) ∧
    ((i = .readCounter ∨ ∃ m en, i = .clockSet m en) →
      t.fault = s.fault ∧ t.faultCmd = s.faultCmd) ∧
    (t.port = s.port ∨ (s.opstate = .idle ∧ t.port = none))

/-- R26 and R13: the block never reads CLOCK_SEL ("nothing in the block"): whatever the block does in its move
(an operation's phase, the fault of an illegal word, the wait), two states that differ only in CLOCK_SEL are
taken to states that differ at most in it, and so by `exec` of any operation. The turn is log 1. -/
def Obligations.ClockSelectIsNeverRead : Prop :=
  (∀ (s : State) (v : Word), s.turn = .block →
    ∃ t t', step s = .next t ∧ step { s with clockSel := v } = .next t' ∧
      { t' with clockSel := 0#32 } = { t with clockSel := 0#32 }) ∧
  (∀ (i : Instr) (s : State) (v : Word),
    ∃ t t', exec i s = .next t ∧ exec i { s with clockSel := v } = .next t' ∧
      { t' with clockSel := 0#32 } = { t with clockSel := 0#32 })

/-- The invariant holds right after power-on, whatever the open parameters are (R7, R23, R32, R38). -/
def Obligations.ResetMeetsTheInvariant : Prop := State.reset.Inv

/-- Every step keeps the invariant: the parameters stay well formed, FAULT and OPSTATE agree (R32), a configured
RATE stays in its legal range (R23), and an operation in progress holds the rate and the threshold that RATE
still gives (R83, R89, R91). -/
def Obligations.StepKeepsTheInvariant : Prop :=
  ∀ s t : State, s.Inv → step s = .next t → t.Inv
end

