-- ==== Sys2Proof/Laws/State.lean ====
section
/-! SUPPORT. One lemma per field per named update of the state: what each update writes and what it leaves. -/

namespace Sys2Proof.Machine

variable (s : State)

section

variable (a : BusAccess)

@[simp] theorem State.record_n : (s.record a).n = s.n := rfl
@[simp] theorem State.record_pllAddac : (s.record a).pllAddac = s.pllAddac := rfl
@[simp] theorem State.record_clockSel : (s.record a).clockSel = s.clockSel := rfl
@[simp] theorem State.record_rate : (s.record a).rate = s.rate := rfl
@[simp] theorem State.record_rateValid : (s.record a).rateValid = s.rateValid := rfl
@[simp] theorem State.record_opstate : (s.record a).opstate = s.opstate := rfl
@[simp] theorem State.record_result : (s.record a).result = s.result := rfl
@[simp] theorem State.record_fault : (s.record a).fault = s.fault := rfl
@[simp] theorem State.record_faultCmd : (s.record a).faultCmd = s.faultCmd := rfl
@[simp] theorem State.record_params : (s.record a).params = s.params := rfl
@[simp] theorem State.record_port : (s.record a).port = s.port := rfl
@[simp] theorem State.record_env : (s.record a).env = s.env := rfl
@[simp] theorem State.record_draws : (s.record a).draws = s.draws := rfl
@[simp] theorem State.record_turn : (s.record a).turn = s.turn := rfl
@[simp] theorem State.record_bus : (s.record a).bus = a :: s.bus := rfl

end

section

@[simp] theorem State.yield_n : s.yield.n = s.n := rfl
@[simp] theorem State.yield_pllAddac : s.yield.pllAddac = s.pllAddac := rfl
@[simp] theorem State.yield_clockSel : s.yield.clockSel = s.clockSel := rfl
@[simp] theorem State.yield_rate : s.yield.rate = s.rate := rfl
@[simp] theorem State.yield_rateValid : s.yield.rateValid = s.rateValid := rfl
@[simp] theorem State.yield_opstate : s.yield.opstate = s.opstate := rfl
@[simp] theorem State.yield_result : s.yield.result = s.result := rfl
@[simp] theorem State.yield_fault : s.yield.fault = s.fault := rfl
@[simp] theorem State.yield_faultCmd : s.yield.faultCmd = s.faultCmd := rfl
@[simp] theorem State.yield_params : s.yield.params = s.params := rfl
@[simp] theorem State.yield_port : s.yield.port = s.port := rfl
@[simp] theorem State.yield_env : s.yield.env = s.env := rfl
@[simp] theorem State.yield_draws : s.yield.draws = s.draws := rfl
@[simp] theorem State.yield_turn : s.yield.turn = .environment := rfl
@[simp] theorem State.yield_bus : s.yield.bus = s.bus := rfl

end

section

variable (b : Busy)

@[simp] theorem State.continueAs_n : (s.continueAs b).n = s.n := rfl
@[simp] theorem State.continueAs_pllAddac : (s.continueAs b).pllAddac = s.pllAddac := rfl
@[simp] theorem State.continueAs_clockSel : (s.continueAs b).clockSel = s.clockSel := rfl
@[simp] theorem State.continueAs_rate : (s.continueAs b).rate = s.rate := rfl
@[simp] theorem State.continueAs_rateValid : (s.continueAs b).rateValid = s.rateValid := rfl
@[simp] theorem State.continueAs_opstate : (s.continueAs b).opstate = .busy b := rfl
@[simp] theorem State.continueAs_result : (s.continueAs b).result = s.result := rfl
@[simp] theorem State.continueAs_fault : (s.continueAs b).fault = s.fault := rfl
@[simp] theorem State.continueAs_faultCmd : (s.continueAs b).faultCmd = s.faultCmd := rfl
@[simp] theorem State.continueAs_params : (s.continueAs b).params = s.params := rfl
@[simp] theorem State.continueAs_port : (s.continueAs b).port = s.port := rfl
@[simp] theorem State.continueAs_env : (s.continueAs b).env = s.env := rfl
@[simp] theorem State.continueAs_draws : (s.continueAs b).draws = s.draws := rfl
@[simp] theorem State.continueAs_turn : (s.continueAs b).turn = s.turn := rfl
@[simp] theorem State.continueAs_bus : (s.continueAs b).bus = s.bus := rfl

end

section

@[simp] theorem State.complete_n : s.complete.n = s.n := rfl
@[simp] theorem State.complete_pllAddac : s.complete.pllAddac = s.pllAddac := rfl
@[simp] theorem State.complete_clockSel : s.complete.clockSel = s.clockSel := rfl
@[simp] theorem State.complete_rate : s.complete.rate = s.rate := rfl
@[simp] theorem State.complete_rateValid : s.complete.rateValid = s.rateValid := rfl
@[simp] theorem State.complete_opstate : s.complete.opstate = .idle := rfl
@[simp] theorem State.complete_result : s.complete.result = s.result := rfl
@[simp] theorem State.complete_fault : s.complete.fault = s.fault := rfl
@[simp] theorem State.complete_faultCmd : s.complete.faultCmd = s.faultCmd := rfl
@[simp] theorem State.complete_params : s.complete.params = s.params := rfl
@[simp] theorem State.complete_port : s.complete.port = s.port := rfl
@[simp] theorem State.complete_env : s.complete.env = s.env := rfl
@[simp] theorem State.complete_draws : s.complete.draws = s.draws := rfl
@[simp] theorem State.complete_turn : s.complete.turn = s.turn := rfl
@[simp] theorem State.complete_bus : s.complete.bus = s.bus := rfl

end

section

variable (v : Word)

@[simp] theorem State.setResult_n : (s.setResult v).n = s.n := rfl
@[simp] theorem State.setResult_pllAddac : (s.setResult v).pllAddac = s.pllAddac := rfl
@[simp] theorem State.setResult_clockSel : (s.setResult v).clockSel = s.clockSel := rfl
@[simp] theorem State.setResult_rate : (s.setResult v).rate = s.rate := rfl
@[simp] theorem State.setResult_rateValid : (s.setResult v).rateValid = s.rateValid := rfl
@[simp] theorem State.setResult_opstate : (s.setResult v).opstate = s.opstate := rfl
@[simp] theorem State.setResult_result : (s.setResult v).result = v := rfl
@[simp] theorem State.setResult_fault : (s.setResult v).fault = s.fault := rfl
@[simp] theorem State.setResult_faultCmd : (s.setResult v).faultCmd = s.faultCmd := rfl
@[simp] theorem State.setResult_params : (s.setResult v).params = s.params := rfl
@[simp] theorem State.setResult_port : (s.setResult v).port = s.port := rfl
@[simp] theorem State.setResult_env : (s.setResult v).env = s.env := rfl
@[simp] theorem State.setResult_draws : (s.setResult v).draws = s.draws := rfl
@[simp] theorem State.setResult_turn : (s.setResult v).turn = s.turn := rfl
@[simp] theorem State.setResult_bus : (s.setResult v).bus = s.bus := rfl

end

section

variable (r : Word)

@[simp] theorem State.configure_n : (s.configure r).n = s.n := rfl
@[simp] theorem State.configure_pllAddac : (s.configure r).pllAddac = s.pllAddac := rfl
@[simp] theorem State.configure_clockSel : (s.configure r).clockSel = s.clockSel := rfl
@[simp] theorem State.configure_rate : (s.configure r).rate = r := rfl
@[simp] theorem State.configure_rateValid : (s.configure r).rateValid = true := rfl
@[simp] theorem State.configure_opstate : (s.configure r).opstate = s.opstate := rfl
@[simp] theorem State.configure_result : (s.configure r).result = s.result := rfl
@[simp] theorem State.configure_fault : (s.configure r).fault = s.fault := rfl
@[simp] theorem State.configure_faultCmd : (s.configure r).faultCmd = s.faultCmd := rfl
@[simp] theorem State.configure_params : (s.configure r).params = s.params := rfl
@[simp] theorem State.configure_port : (s.configure r).port = s.port := rfl
@[simp] theorem State.configure_env : (s.configure r).env = s.env := rfl
@[simp] theorem State.configure_draws : (s.configure r).draws = s.draws := rfl
@[simp] theorem State.configure_turn : (s.configure r).turn = s.turn := rfl
@[simp] theorem State.configure_bus : (s.configure r).bus = s.bus := rfl

end

section

variable (v : Word)

@[simp] theorem State.setClockSel_n : (s.setClockSel v).n = s.n := rfl
@[simp] theorem State.setClockSel_pllAddac : (s.setClockSel v).pllAddac = s.pllAddac := rfl
@[simp] theorem State.setClockSel_clockSel : (s.setClockSel v).clockSel = v := rfl
@[simp] theorem State.setClockSel_rate : (s.setClockSel v).rate = s.rate := rfl
@[simp] theorem State.setClockSel_rateValid : (s.setClockSel v).rateValid = s.rateValid := rfl
@[simp] theorem State.setClockSel_opstate : (s.setClockSel v).opstate = s.opstate := rfl
@[simp] theorem State.setClockSel_result : (s.setClockSel v).result = s.result := rfl
@[simp] theorem State.setClockSel_fault : (s.setClockSel v).fault = s.fault := rfl
@[simp] theorem State.setClockSel_faultCmd : (s.setClockSel v).faultCmd = s.faultCmd := rfl
@[simp] theorem State.setClockSel_params : (s.setClockSel v).params = s.params := rfl
@[simp] theorem State.setClockSel_port : (s.setClockSel v).port = s.port := rfl
@[simp] theorem State.setClockSel_env : (s.setClockSel v).env = s.env := rfl
@[simp] theorem State.setClockSel_draws : (s.setClockSel v).draws = s.draws := rfl
@[simp] theorem State.setClockSel_turn : (s.setClockSel v).turn = s.turn := rfl
@[simp] theorem State.setClockSel_bus : (s.setClockSel v).bus = s.bus := rfl

end

section

variable (i : Instr)

@[simp] theorem State.accept_n : (s.accept i).n = s.n := rfl
@[simp] theorem State.accept_pllAddac : (s.accept i).pllAddac = s.pllAddac := rfl
@[simp] theorem State.accept_clockSel : (s.accept i).clockSel = s.clockSel := rfl
@[simp] theorem State.accept_rate : (s.accept i).rate = s.rate := rfl
@[simp] theorem State.accept_rateValid : (s.accept i).rateValid = s.rateValid := rfl
@[simp] theorem State.accept_opstate : (s.accept i).opstate = .busy (Busy.start i) := rfl
@[simp] theorem State.accept_result : (s.accept i).result = s.result := rfl
@[simp] theorem State.accept_fault : (s.accept i).fault = s.fault := rfl
@[simp] theorem State.accept_faultCmd : (s.accept i).faultCmd = s.faultCmd := rfl
@[simp] theorem State.accept_params : (s.accept i).params = s.params := rfl
@[simp] theorem State.accept_port : (s.accept i).port = none := rfl
@[simp] theorem State.accept_env : (s.accept i).env = s.env := rfl
@[simp] theorem State.accept_draws : (s.accept i).draws = s.draws := rfl
@[simp] theorem State.accept_turn : (s.accept i).turn = s.turn := rfl
@[simp] theorem State.accept_bus : (s.accept i).bus = s.bus := rfl

end

section

variable (code : FaultCode) (w : Word)

@[simp] theorem State.raiseFault_n : (s.raiseFault code w).n = s.n := rfl
@[simp] theorem State.raiseFault_pllAddac : (s.raiseFault code w).pllAddac = s.pllAddac := rfl
@[simp] theorem State.raiseFault_clockSel : (s.raiseFault code w).clockSel = s.clockSel := rfl
@[simp] theorem State.raiseFault_rate : (s.raiseFault code w).rate = s.rate := rfl
@[simp] theorem State.raiseFault_rateValid : (s.raiseFault code w).rateValid = s.rateValid := rfl
@[simp] theorem State.raiseFault_opstate : (s.raiseFault code w).opstate = .faulted := rfl
@[simp] theorem State.raiseFault_result : (s.raiseFault code w).result = s.result := rfl
@[simp] theorem State.raiseFault_fault : (s.raiseFault code w).fault = code := rfl
@[simp] theorem State.raiseFault_faultCmd : (s.raiseFault code w).faultCmd = w := rfl
@[simp] theorem State.raiseFault_params : (s.raiseFault code w).params = s.params := rfl
@[simp] theorem State.raiseFault_port : (s.raiseFault code w).port = s.port := rfl
@[simp] theorem State.raiseFault_env : (s.raiseFault code w).env = s.env := rfl
@[simp] theorem State.raiseFault_draws : (s.raiseFault code w).draws = s.draws := rfl
@[simp] theorem State.raiseFault_turn : (s.raiseFault code w).turn = s.turn := rfl
@[simp] theorem State.raiseFault_bus : (s.raiseFault code w).bus = s.bus := rfl

end

section

variable (i : Instr)

@[simp] theorem State.raiseRateUninit_n : (s.raiseRateUninit i).n = s.n := rfl
@[simp] theorem State.raiseRateUninit_pllAddac : (s.raiseRateUninit i).pllAddac = s.pllAddac := rfl
@[simp] theorem State.raiseRateUninit_clockSel : (s.raiseRateUninit i).clockSel = s.clockSel := rfl
@[simp] theorem State.raiseRateUninit_rate : (s.raiseRateUninit i).rate = s.rate := rfl
@[simp] theorem State.raiseRateUninit_rateValid : (s.raiseRateUninit i).rateValid = s.rateValid := rfl
@[simp] theorem State.raiseRateUninit_opstate : (s.raiseRateUninit i).opstate = .faulted := rfl
@[simp] theorem State.raiseRateUninit_result : (s.raiseRateUninit i).result = s.result := rfl
@[simp] theorem State.raiseRateUninit_fault : (s.raiseRateUninit i).fault = .rateUninit := rfl
@[simp] theorem State.raiseRateUninit_faultCmd : (s.raiseRateUninit i).faultCmd = i.op.setWidth 32 := rfl
@[simp] theorem State.raiseRateUninit_params : (s.raiseRateUninit i).params = s.params := rfl
@[simp] theorem State.raiseRateUninit_port : (s.raiseRateUninit i).port = s.port := rfl
@[simp] theorem State.raiseRateUninit_env : (s.raiseRateUninit i).env = s.env := rfl
@[simp] theorem State.raiseRateUninit_draws : (s.raiseRateUninit i).draws = s.draws := rfl
@[simp] theorem State.raiseRateUninit_turn : (s.raiseRateUninit i).turn = s.turn := rfl
@[simp] theorem State.raiseRateUninit_bus : (s.raiseRateUninit i).bus = s.bus := rfl

end

section

variable (w : Word)

@[simp] theorem State.raiseIllegal_n : (s.raiseIllegal w).n = s.n := rfl
@[simp] theorem State.raiseIllegal_pllAddac : (s.raiseIllegal w).pllAddac = s.pllAddac := rfl
@[simp] theorem State.raiseIllegal_clockSel : (s.raiseIllegal w).clockSel = s.clockSel := rfl
@[simp] theorem State.raiseIllegal_rate : (s.raiseIllegal w).rate = s.rate := rfl
@[simp] theorem State.raiseIllegal_rateValid : (s.raiseIllegal w).rateValid = s.rateValid := rfl
@[simp] theorem State.raiseIllegal_opstate : (s.raiseIllegal w).opstate = .faulted := rfl
@[simp] theorem State.raiseIllegal_result : (s.raiseIllegal w).result = s.result := rfl
@[simp] theorem State.raiseIllegal_fault : (s.raiseIllegal w).fault = .illegalCommand := rfl
@[simp] theorem State.raiseIllegal_faultCmd : (s.raiseIllegal w).faultCmd = w := rfl
@[simp] theorem State.raiseIllegal_params : (s.raiseIllegal w).params = s.params := rfl
@[simp] theorem State.raiseIllegal_port : (s.raiseIllegal w).port = none := rfl
@[simp] theorem State.raiseIllegal_env : (s.raiseIllegal w).env = s.env := rfl
@[simp] theorem State.raiseIllegal_draws : (s.raiseIllegal w).draws = s.draws := rfl
@[simp] theorem State.raiseIllegal_turn : (s.raiseIllegal w).turn = s.turn := rfl
@[simp] theorem State.raiseIllegal_bus : (s.raiseIllegal w).bus = s.bus := rfl

end

section

variable (d : ResetDraw) (c : Option Command)

@[simp] theorem State.resetWith_n : (s.resetWith d c).n = d.n := rfl
@[simp] theorem State.resetWith_pllAddac : (s.resetWith d c).pllAddac = d.pllAddac := rfl
@[simp] theorem State.resetWith_clockSel : (s.resetWith d c).clockSel = d.clockSel := rfl
@[simp] theorem State.resetWith_rate : (s.resetWith d c).rate = (match s.params.ratePolicy with | .fault => d.rate | .zero => 0#32) := rfl
@[simp] theorem State.resetWith_rateValid : (s.resetWith d c).rateValid = false := rfl
@[simp] theorem State.resetWith_opstate : (s.resetWith d c).opstate = .idle := rfl
@[simp] theorem State.resetWith_result : (s.resetWith d c).result = d.result := rfl
@[simp] theorem State.resetWith_fault : (s.resetWith d c).fault = .none := rfl
@[simp] theorem State.resetWith_faultCmd : (s.resetWith d c).faultCmd = d.faultCmd := rfl
@[simp] theorem State.resetWith_params : (s.resetWith d c).params = s.params := rfl
@[simp] theorem State.resetWith_port : (s.resetWith d c).port = c := rfl
@[simp] theorem State.resetWith_env : (s.resetWith d c).env = s.env := rfl
@[simp] theorem State.resetWith_draws : (s.resetWith d c).draws = s.draws := rfl
@[simp] theorem State.resetWith_turn : (s.resetWith d c).turn = .block := rfl
@[simp] theorem State.resetWith_bus : (s.resetWith d c).bus = s.bus := rfl

end

section

variable (m : EnvMove)

@[simp] theorem State.advance_n : (s.advance m).n = s.n + m.ticks := rfl
@[simp] theorem State.advance_pllAddac : (s.advance m).pllAddac = m.pllAddac := rfl
@[simp] theorem State.advance_clockSel : (s.advance m).clockSel = s.clockSel := rfl
@[simp] theorem State.advance_rate : (s.advance m).rate = s.rate := rfl
@[simp] theorem State.advance_rateValid : (s.advance m).rateValid = s.rateValid := rfl
@[simp] theorem State.advance_opstate : (s.advance m).opstate = s.opstate := rfl
@[simp] theorem State.advance_result : (s.advance m).result = s.result := rfl
@[simp] theorem State.advance_fault : (s.advance m).fault = s.fault := rfl
@[simp] theorem State.advance_faultCmd : (s.advance m).faultCmd = s.faultCmd := rfl
@[simp] theorem State.advance_params : (s.advance m).params = s.params := rfl
@[simp] theorem State.advance_port : (s.advance m).port = s.port.or m.present := rfl
@[simp] theorem State.advance_env : (s.advance m).env = s.env := rfl
@[simp] theorem State.advance_draws : (s.advance m).draws = s.draws := rfl
@[simp] theorem State.advance_turn : (s.advance m).turn = .block := rfl
@[simp] theorem State.advance_bus : (s.advance m).bus = s.bus := rfl

end

section

variable (c : Command)

@[simp] theorem State.presentNow_n : (s.presentNow c).n = s.n := rfl
@[simp] theorem State.presentNow_pllAddac : (s.presentNow c).pllAddac = s.pllAddac := rfl
@[simp] theorem State.presentNow_clockSel : (s.presentNow c).clockSel = s.clockSel := rfl
@[simp] theorem State.presentNow_rate : (s.presentNow c).rate = s.rate := rfl
@[simp] theorem State.presentNow_rateValid : (s.presentNow c).rateValid = s.rateValid := rfl
@[simp] theorem State.presentNow_opstate : (s.presentNow c).opstate = .idle := rfl
@[simp] theorem State.presentNow_result : (s.presentNow c).result = s.result := rfl
@[simp] theorem State.presentNow_fault : (s.presentNow c).fault = .none := rfl
@[simp] theorem State.presentNow_faultCmd : (s.presentNow c).faultCmd = s.faultCmd := rfl
@[simp] theorem State.presentNow_params : (s.presentNow c).params = s.params := rfl
@[simp] theorem State.presentNow_port : (s.presentNow c).port = some c := rfl
@[simp] theorem State.presentNow_env : (s.presentNow c).env = s.env := rfl
@[simp] theorem State.presentNow_draws : (s.presentNow c).draws = s.draws := rfl
@[simp] theorem State.presentNow_turn : (s.presentNow c).turn = .block := rfl
@[simp] theorem State.presentNow_bus : (s.presentNow c).bus = s.bus := rfl

end

end Sys2Proof.Machine
end

