-- ==== Sys2Proof/Laws/Ops.lean ====
section
/-! SUPPORT. One lemma for each shared operation that says once everything it can do; the provers cite these
instead of unfolding. -/

namespace Sys2Proof.Machine

/-! ### Register-bus accesses -/

@[simp] theorem State.regRead16_val (h : CounterHalf) (s : State) :
    (s.regRead16 h).1 = halfOf h s.n := rfl

@[simp] theorem State.regRead16_state (h : CounterHalf) (s : State) :
    (s.regRead16 h).2 = s.record (.read16 (halfAddr s.params h) (halfOf h s.n)) := rfl

@[simp] theorem State.regRead32_val (s : State) : s.regRead32.1 = s.pllAddac := rfl

@[simp] theorem State.regRead32_state (s : State) :
    s.regRead32.2 = s.record (.read32 s.params.addrPllAddac s.pllAddac) := rfl

@[simp] theorem State.regWrite32_eq (v : Word) (s : State) :
    s.regWrite32 v = (s.setClockSel v).record (.write32 s.params.addrClockSel v) := rfl

@[simp] theorem State.readFirst_val (s : State) :
    s.readFirst.1 = halfOf (firstHalf s.params.readOrder) s.n := rfl

@[simp] theorem State.readFirst_state (s : State) :
    s.readFirst.2 = s.record (.read16 (halfAddr s.params (firstHalf s.params.readOrder))
      (halfOf (firstHalf s.params.readOrder) s.n)) := rfl

@[simp] theorem State.readSecond_val (first : Half) (s : State) :
    (s.readSecond first).1 =
      composeRead s.params.readOrder first (halfOf (secondHalf s.params.readOrder) s.n) := rfl

@[simp] theorem State.readSecond_state (first : Half) (s : State) :
    (s.readSecond first).2 = s.record (.read16 (halfAddr s.params (secondHalf s.params.readOrder))
      (halfOf (secondHalf s.params.readOrder) s.n)) := rfl

/-! ### The rate check -/

/-- `RateRead` gives `r`: the configured rate, or 0 where the policy is ZERO. -/
theorem State.rateRead_eq_some_iff (s : State) (r : Word) :
    s.rateRead = some r ↔
      (s.rateValid = true ∧ s.rate = r) ∨
        (s.rateValid = false ∧ s.params.ratePolicy = .zero ∧ r = 0#32) := by
  unfold State.rateRead
  cases s.rateValid <;> cases s.params.ratePolicy <;> simp
  exact eq_comm

/-- `RateRead` raises: not configured, and the policy is FAULT. -/
theorem State.rateRead_eq_none_iff (s : State) :
    s.rateRead = none ↔ s.rateValid = false ∧ s.params.ratePolicy = .fault := by
  unfold State.rateRead
  cases s.rateValid <;> cases s.params.ratePolicy <;> simp

/-- The rate check depends on RATE, RATE_VALID and the policy alone. -/
theorem State.rateRead_congr {s t : State} (hr : t.rate = s.rate) (hv : t.rateValid = s.rateValid)
    (hp : t.params = s.params) : t.rateRead = s.rateRead := by
  unfold State.rateRead
  rw [hr, hv, hp]

@[simp] theorem State.rateRead_record (a : BusAccess) (s : State) :
    (s.record a).rateRead = s.rateRead := rfl

@[simp] theorem State.rateRead_accept (i : Instr) (s : State) :
    (s.accept i).rateRead = s.rateRead := rfl

@[simp] theorem State.rateRead_yield (s : State) : s.yield.rateRead = s.rateRead := rfl

@[simp] theorem State.rateRead_continueAs (b : Busy) (s : State) :
    (s.continueAs b).rateRead = s.rateRead := rfl

@[simp] theorem State.rateRead_complete (s : State) : s.complete.rateRead = s.rateRead := rfl

@[simp] theorem State.rateRead_setResult (v : Word) (s : State) :
    (s.setResult v).rateRead = s.rateRead := rfl

@[simp] theorem State.rateRead_configure (r : Word) (s : State) :
    (s.configure r).rateRead = some r := rfl

@[simp] theorem State.rateRead_advance (m : EnvMove) (s : State) :
    (s.advance m).rateRead = s.rateRead := rfl

/-! ### Acceptance -/

@[simp] theorem Busy.start_readCounter : Busy.start .readCounter = .readCounter .start := rfl

@[simp] theorem Busy.start_clockSet (m : ClockMode) (en : Bool) :
    Busy.start (.clockSet m en) = .clockSet m en .start := rfl

@[simp] theorem Busy.start_readRate : Busy.start .readRate = .readRate := rfl

@[simp] theorem Busy.start_isAfterMsecs (t0 msecs : Word) :
    Busy.start (.isAfterMsecs t0 msecs) = .isAfterMsecs t0 msecs .start := rfl

@[simp] theorem Busy.start_delay (x : Word) : Busy.start (.delay x) = .delay x .start := rfl

@[simp] theorem Busy.start_udelay (x : Word) : Busy.start (.udelay x) = .udelay x .start := rfl

@[simp] theorem Busy.instr_start (i : Instr) : (Busy.start i).instr = i := by cases i <;> rfl

theorem State.engage_idle {s : State} (i : Instr) (h : s.opstate = .idle) :
    s.engage i = s.accept i := by
  simp [State.engage, h]

theorem State.engage_busy {s : State} (i : Instr) {b : Busy} (h : s.opstate = .busy b) :
    s.engage i = s := by
  simp [State.engage, h]

theorem State.engage_faulted {s : State} (i : Instr) (h : s.opstate = .faulted) :
    s.engage i = s := by
  simp [State.engage, h]

/-! ### The environment's move -/

theorem State.takeMove_eq (s : State) :
    (s.env = [] ∧ s.takeMove = { s with draws := s.draws + 1 }) ∨
      ∃ m rest, s.env = m :: rest ∧ s.nextMove = m ∧ s.takeMove = { s with env := rest } := by
  unfold State.takeMove State.nextMove
  cases s.env <;> simp

@[simp] theorem State.takeMove_n (s : State) : s.takeMove.n = s.n := by
  unfold State.takeMove; split <;> rfl

@[simp] theorem State.takeMove_pllAddac (s : State) : s.takeMove.pllAddac = s.pllAddac := by
  unfold State.takeMove; split <;> rfl

@[simp] theorem State.takeMove_clockSel (s : State) : s.takeMove.clockSel = s.clockSel := by
  unfold State.takeMove; split <;> rfl

@[simp] theorem State.takeMove_rate (s : State) : s.takeMove.rate = s.rate := by
  unfold State.takeMove; split <;> rfl

@[simp] theorem State.takeMove_rateValid (s : State) : s.takeMove.rateValid = s.rateValid := by
  unfold State.takeMove; split <;> rfl

@[simp] theorem State.takeMove_opstate (s : State) : s.takeMove.opstate = s.opstate := by
  unfold State.takeMove; split <;> rfl

@[simp] theorem State.takeMove_result (s : State) : s.takeMove.result = s.result := by
  unfold State.takeMove; split <;> rfl

@[simp] theorem State.takeMove_fault (s : State) : s.takeMove.fault = s.fault := by
  unfold State.takeMove; split <;> rfl

@[simp] theorem State.takeMove_faultCmd (s : State) : s.takeMove.faultCmd = s.faultCmd := by
  unfold State.takeMove; split <;> rfl

@[simp] theorem State.takeMove_params (s : State) : s.takeMove.params = s.params := by
  unfold State.takeMove; split <;> rfl

@[simp] theorem State.takeMove_port (s : State) : s.takeMove.port = s.port := by
  unfold State.takeMove; split <;> rfl

@[simp] theorem State.takeMove_turn (s : State) : s.takeMove.turn = s.turn := by
  unfold State.takeMove; split <;> rfl

@[simp] theorem State.takeMove_bus (s : State) : s.takeMove.bus = s.bus := by
  unfold State.takeMove; split <;> rfl

@[simp] theorem State.takeMove_rateRead (s : State) : s.takeMove.rateRead = s.rateRead :=
  State.rateRead_congr (by simp) (by simp) (by simp)

theorem State.envAdvance_noReset {s : State} (h : s.nextMove.reset = none) :
    s.envAdvance = s.takeMove.advance s.nextMove := by
  simp [State.envAdvance, State.applyMove, h]

theorem State.envAdvance_reset {s : State} {d : ResetDraw} (h : s.nextMove.reset = some d) :
    s.envAdvance = s.takeMove.resetWith d s.nextMove.present := by
  simp [State.envAdvance, State.applyMove, h]

end Sys2Proof.Machine
end

