-- ==== Sys2Proof/Laws/Formats.lean ====
section
/-! SUPPORT. The value formats as arithmetic on natural numbers, and that the parameters of `State.reset` meet
their constraints. -/

namespace Sys2Proof

theorem Config.distinctFrom_notMem (used : List Word) (x : Word) (h : used.length ≤ 3) :
    Config.distinctFrom used x ∉ used := by
  unfold Config.distinctFrom
  cases hf : [x, x + 1, x + 2, x + 3].find? (fun y => !used.contains y) with
  | some y =>
    have := List.find?_some hf
    simpa using this
  | none =>
    exfalso
    rw [List.find?_eq_none] at hf
    have hsub : [x, x + 1, x + 2, x + 3] ⊆ used := by
      intro y hy
      simpa using hf y hy
    have hnd : [x, x + 1, x + 2, x + 3].Nodup := by
      simp only [List.nodup_cons, List.mem_cons, List.not_mem_nil, or_false, not_or,
        not_false_eq_true, List.nodup_nil, and_true]
      refine ⟨⟨?_, ?_, ?_⟩, ⟨?_, ?_⟩, ?_⟩ <;> bv_omega
    have := (hnd.subperm hsub).length_le
    simp at this
    omega

/-- The parameters of the machine that `State.reset` describes are well formed, whatever the open constants
are. -/
theorem Config.params_wf : Config.params.wf = true := by
  have h1 := Config.distinctFrom_notMem [Config.addrClockHigh] Config.addrSeedClockLow (by simp)
  have h2 := Config.distinctFrom_notMem [Config.addrClockHigh, Config.addrClockLow]
    Config.addrSeedPllAddac (by simp)
  have h3 := Config.distinctFrom_notMem
    [Config.addrClockHigh, Config.addrClockLow, Config.addrPllAddac] Config.addrSeedClockSel (by simp)
  have hd : Config.divLsb < 32 := Nat.mod_lt _ (by decide)
  have hw : Config.divWidthSeed % (32 - Config.divLsb) < 32 - Config.divLsb :=
    Nat.mod_lt _ (by omega)
  have hf : Config.divLsb + (Config.divWidthSeed % (32 - Config.divLsb) + 1) ≤ 32 := by omega
  simp only [List.mem_cons, List.not_mem_nil, or_false, not_or] at h1 h2 h3
  have hn : [Config.addrClockHigh, Config.addrClockLow, Config.addrPllAddac,
      Config.addrClockSel].Nodup := by
    simp only [List.nodup_cons, List.mem_cons, List.not_mem_nil, or_false, not_or,
      not_false_eq_true, List.nodup_nil, and_true]
    exact ⟨⟨Ne.symm h1, Ne.symm h2.1, Ne.symm h3.1⟩, ⟨Ne.symm h2.2, Ne.symm h3.2.1⟩,
      Ne.symm h3.2.2⟩
  have h1w : Config.params.widthPositive = true := decide_eq_true (Nat.le_add_left 1 _)
  have h2w : Config.params.fieldFits = true := decide_eq_true hf
  have h3w : Config.params.addressesDistinct = true := decide_eq_true hn
  rw [Params.wf, h1w, h2w, h3w]
  rfl

namespace Machine

@[simp] theorem cntOf_toNat (n : Nat) : (cntOf n).toNat = n % 2 ^ 32 := by simp [cntOf]

@[simp] theorem halfOf_high_toNat (n : Nat) : (halfOf .high n).toNat = n / 2 ^ 16 % 2 ^ 16 := by
  simp only [halfOf, BitVec.extractLsb'_toNat, cntOf_toNat, Nat.shiftRight_eq_div_pow]
  omega

@[simp] theorem halfOf_low_toNat (n : Nat) : (halfOf .low n).toNat = n % 2 ^ 16 := by
  simp only [halfOf, BitVec.extractLsb'_toNat, cntOf_toNat, Nat.shiftRight_eq_div_pow]
  omega

/-- The composition as a number: the high half counts 2^16 each. -/
@[simp] theorem compose_toNat (hi lo : Half) :
    (compose hi lo).toNat = hi.toNat * 2 ^ 16 + lo.toNat := by
  have h1 := hi.isLt
  have h2 := lo.isLt
  have hs : hi.toNat <<< 16 = hi.toNat * 2 ^ 16 := Nat.shiftLeft_eq _ _
  have hm : hi.toNat * 2 ^ 16 % 2 ^ 32 = hi.toNat * 2 ^ 16 := Nat.mod_eq_of_lt (by omega)
  have ho : hi.toNat <<< 16 + lo.toNat = hi.toNat <<< 16 ||| lo.toNat :=
    Nat.shiftLeft_add_eq_or_of_lt h2 _
  have hh : hi.toNat % 2 ^ 32 = hi.toNat := Nat.mod_eq_of_lt (by omega)
  have hl : lo.toNat % 2 ^ 32 = lo.toNat := Nat.mod_eq_of_lt (by omega)
  rw [compose, BitVec.toNat_or, BitVec.toNat_shiftLeft, BitVec.toNat_setWidth, BitVec.toNat_setWidth,
    hh, hl, hs, hm, ← hs, ← ho]

@[simp] theorem delta_toNat (a b : Word) :
    (delta a b).toNat = (2 ^ 32 - b.toNat + a.toNat) % 2 ^ 32 := by
  simp [delta, BitVec.toNat_sub]

@[simp] theorem threshold_toNat (x r : Word) :
    (threshold x r).toNat = x.toNat * r.toNat % 2 ^ 32 := by
  simp [threshold, BitVec.toNat_mul]

/-- Division of a word by MS_DIVISOR (R9: floor division). -/
theorem div_msDivisor_toNat (a : Word) : (a / Config.msDivisor).toNat = a.toNat / 1000 := by
  simp [Config.msDivisor, BitVec.toNat_udiv]

end Machine

/-- The command word's fields as numbers (R56). -/
theorem fields_toNat (w : Word) :
    (opField w).toNat = w.toNat % 8 ∧ (modeField w).toNat = w.toNat / 8 % 4 ∧
      (enField w).toNat = w.toNat / 32 % 2 ∧ (reservedField w).toNat = w.toNat / 64 := by
  have := w.isLt
  simp [opField, modeField, enField, reservedField, BitVec.extractLsb'_toNat,
    Nat.shiftRight_eq_div_pow]
  omega

/-- The decoder with its tests as arithmetic on the command word. -/
theorem decode_eq (c : Command) :
    decode c = if c.cmd.toNat / 64 ≠ 0 then .error .reservedBitsSet
      else if c.cmd.toNat % 8 = 1 then
        .ok (.clockSet (ClockMode.ofIndex (modeField c.cmd)) (enField c.cmd == 1#1))
      else if c.cmd.toNat / 8 % 8 ≠ 0 then .error .modeOrEnableSet
      else if c.cmd.toNat % 8 = 0 then .ok .readCounter
      else if c.cmd.toNat % 8 = 2 then .ok .readRate
      else if c.cmd.toNat % 8 = 3 then .ok (.isAfterMsecs c.a c.b)
      else if c.cmd.toNat % 8 = 4 then .ok (.delay c.a)
      else if c.cmd.toNat % 8 = 5 then .ok (.udelay c.a)
      else .error .reservedOp := by
  obtain ⟨h1, h2, h3, h4⟩ := fields_toNat c.cmd
  have e1 : ∀ k : Nat, k < 8 → (opField c.cmd = BitVec.ofNat 3 k ↔ c.cmd.toNat % 8 = k) := by
    intro k hk
    rw [← h1, ← BitVec.toNat_inj, BitVec.toNat_ofNat]
    omega
  have e2 : (modeField c.cmd ≠ 0#2 ∨ enField c.cmd ≠ 0#1) ↔ c.cmd.toNat / 8 % 8 ≠ 0 := by
    rw [ne_eq, ne_eq, ← BitVec.toNat_inj, ← BitVec.toNat_inj, h2, h3]
    simp only [BitVec.toNat_ofNat]
    omega
  have e3 : reservedField c.cmd ≠ 0#26 ↔ c.cmd.toNat / 64 ≠ 0 := by
    rw [ne_eq, ← BitVec.toNat_inj, h4]
    simp
  unfold decode
  simp only [e1 0 (by omega), e1 1 (by omega), e1 2 (by omega), e1 3 (by omega), e1 4 (by omega),
    e1 5 (by omega), e2, e3]

end Sys2Proof
end

