-- ==== Sys2Proof/Laws/PerInstr.lean ====
section
/-! SUPPORT. What holds of each operation as syntax, one lemma per constructor. -/

namespace Sys2Proof.Laws.EncodesLegally

/-- The command word written for an operation is none of R60's illegal ones, and its OP field is the
operation's (R57). -/
def Statement (i : Instr) : Prop :=
  Command.legal (encode i).cmd = true ∧ opField (encode i).cmd = i.op

theorem readCounter : Statement .readCounter := ⟨rfl, rfl⟩

theorem clockSet (m : ClockMode) (en : Bool) : Statement (.clockSet m en) := by
  cases m <;> cases en <;> exact ⟨rfl, rfl⟩

theorem readRate : Statement .readRate := ⟨rfl, rfl⟩

theorem isAfterMsecs (t0 msecs : Word) : Statement (.isAfterMsecs t0 msecs) :=
  ⟨(by decide : Command.legal 0x00000003#32 = true), rfl⟩

theorem delay (msec : Word) : Statement (.delay msec) := ⟨(by decide : Command.legal 0x00000004#32 = true), rfl⟩

theorem udelay (usec : Word) : Statement (.udelay usec) := ⟨(by decide : Command.legal 0x00000005#32 = true), rfl⟩

end Sys2Proof.Laws.EncodesLegally
end

