-- ==== Sys2Proof/Laws/Step.lean ====
section
/-! SUPPORT. What `exec` and `step` can do, said once: the meanings as one phase function, and the inversion of a
step. -/

namespace Sys2Proof.Machine

/-- The phase functions of the six operations under one name, for the lemmas below. -/
def runPhase (b : Busy) (s : State) : State :=
  match b with
  | .readCounter ph => readCounterPhase ph s
  | .clockSet m en ph => clockSetPhase m en ph s
  | .readRate => readRatePhase s
  | .isAfterMsecs t0 msecs ph => isAfterPhase t0 msecs ph s
  | .delay msec ph => delayPhase (.delay msec) msec (.delay msec) delayEnds ph s
  | .udelay usec ph => delayPhase (.udelay usec) usec (.udelay usec) udelayEnds ph s

/-- A block that runs an operation: `exec` of that operation is its next phase. -/
theorem exec_of_busy {s : State} {b : Busy} (h : s.opstate = .busy b) :
    exec b.instr s = .next (runPhase b s).yield := by
  cases b <;>
    simp [Busy.instr, exec, execReadCounter, execClockSet, execReadRate, execIsAfterMsecs, execDelay,
      execUdelay, State.engage, h, runPhase]

/-- An IDLE block: `exec` of an operation accepts it and runs its first phase. -/
theorem exec_of_idle {s : State} (i : Instr) (h : s.opstate = .idle) :
    exec i s = .next (runPhase (Busy.start i) (s.accept i)).yield := by
  cases i <;>
    simp [exec, execReadCounter, execClockSet, execReadRate, execIsAfterMsecs, execDelay,
      execUdelay, State.engage, h, runPhase, Busy.start]

/-- A phase writes neither the counter nor PLL_ADDAC, nor the model's own parameters, inputs and port. -/
theorem runPhase_keeps (b : Busy) (s : State) :
    (runPhase b s).n = s.n ∧ (runPhase b s).pllAddac = s.pllAddac ∧
      (runPhase b s).params = s.params ∧ (runPhase b s).port = s.port ∧
      (runPhase b s).env = s.env ∧ (runPhase b s).draws = s.draws := by
  cases b with
  | readCounter ph => cases ph <;> simp [runPhase, readCounterPhase]
  | clockSet m en ph => cases ph <;> simp [runPhase, clockSetPhase]
  | readRate => simp only [runPhase, readRatePhase]; split <;> simp
  | isAfterMsecs t0 msecs ph =>
    cases ph <;> simp only [runPhase, isAfterPhase] <;> (try split) <;> simp
  | delay x ph => cases ph <;> simp only [runPhase, delayPhase] <;> (try split) <;> simp
  | udelay x ph => cases ph <;> simp only [runPhase, delayPhase] <;> (try split) <;> simp

/-- What one step can be (the inversion of `step`): an environment move, a wait, the fault of an illegal
word, a phase of the operation in progress, or an acceptance with the first phase. -/
inductive StepCase (s t : State) : Prop
  | environment (turn : s.turn = .environment) (eq : t = s.envAdvance)
  | faulted (turn : s.turn = .block) (op : s.opstate = .faulted) (eq : t = s.yield)
  | nothing (turn : s.turn = .block) (op : s.opstate = .idle) (port : s.port = none) (eq : t = s.yield)
  | illegal (turn : s.turn = .block) (op : s.opstate = .idle) (c : Command) (e : DecodeError)
      (port : s.port = some c) (dec : decode c = .error e) (eq : t = (s.raiseIllegal c.cmd).yield)
  | accepts (turn : s.turn = .block) (op : s.opstate = .idle) (c : Command) (i : Instr)
      (port : s.port = some c) (dec : decode c = .ok i)
      (eq : t = (runPhase (Busy.start i) (s.accept i)).yield)
  | continues (turn : s.turn = .block) (b : Busy) (op : s.opstate = .busy b)
      (eq : t = (runPhase b s).yield)

theorem step_cases {s t : State} (h : step s = .next t) : StepCase s t := by
  unfold step at h
  cases ht : s.turn with
  | environment =>
    simp only [ht, Host.Outcome.next.injEq] at h
    exact .environment ht h.symm
  | block =>
    simp only [ht] at h
    cases ho : s.opstate with
    | faulted =>
      simp only [State.fetch, ho, Host.Outcome.next.injEq] at h
      exact .faulted ht ho h.symm
    | busy b =>
      simp only [State.fetch, ho, exec_of_busy ho, Host.Outcome.next.injEq] at h
      exact .continues ht b ho h.symm
    | idle =>
      cases hp : s.port with
      | none =>
        simp only [State.fetch, ho, hp, Host.Outcome.next.injEq] at h
        exact .nothing ht ho hp h.symm
      | some c =>
        cases hd : decode c with
        | error e =>
          simp only [State.fetch, ho, hp, hd, Host.Outcome.next.injEq] at h
          exact .illegal ht ho c e hp hd h.symm
        | ok i =>
          simp only [State.fetch, ho, hp, hd, exec_of_idle i ho, Host.Outcome.next.injEq] at h
          exact .accepts ht ho c i hp hd h.symm

end Sys2Proof.Machine
end

