-- ==== Sys2Proof/Tests/Slice0.lean ====
section
/-! SUPPORT. Tests: ill-formed terms refused, words decoded, single steps with the results of 95_test_vectors, and
a witness for the hypotheses of every statement. Expected results come from the spec's vectors, not from the
model. -/

namespace Sys2Proof.Tests

open Sys2Proof.Machine

/-! ### Helpers -/

/-- Explicit parameters: the hypothetical DIV position of 95 L2-B3 (lsb 5, width 9), HIGH_FIRST, FAULT. -/
def demoParams : Params where
  addrClockHigh := 0x10#32
  addrClockLow := 0x14#32
  addrPllAddac := 0x18#32
  addrClockSel := 0x1C#32
  divLsb := 5
  divWidth := 9
  readOrder := .highFirst
  ratePolicy := .fault
  modeCode := ⟨0#32, 1#32, 2#32, 3#32⟩

/-- A configured state with `RATE = r`, count `n`, progress `op`. -/
def demo (n : Nat) (r : Word) (op : OpState) : State :=
  { State.reset with
    params := demoParams, n := n, rate := r, rateValid := true, opstate := op
    pllAddac := 0x00000A1F#32, clockSel := 0x603#32, result := 7#32 }

/-- The same under LOW_FIRST. -/
def demoLow (n : Nat) (r : Word) (op : OpState) : State :=
  { demo n r op with params := { demoParams with readOrder := .lowFirst } }

/-- An environment move of `k` ticks and nothing else. -/
def ticks (k : Nat) : EnvMove := ⟨k, 0x00000A1F#32, none, none⟩

/-- A state whose RATE was never configured, under the policy `p`. -/
def fresh (p : RatePolicy) (op : OpState) : State :=
  { demo 0x500 0#32 op with
    rateValid := false, params := { demoParams with ratePolicy := p } }

/-- The same state on the environment's turn, with the moves `ms` coming. -/
def envTurn (ms : List EnvMove) (s : State) : State := { s with turn := .environment, env := ms }

/-- A field of the next state, if there is one. -/
def field {α : Type} (f : State → α) : Host.Outcome State Fault Refusal → Option α
  | .next t => some (f t)
  | .fault _ => none
  | .refused _ => none

/-- The state after `k` steps from `s`, or `s` where the run stops. -/
def at_ (s : State) (k : Nat) : State :=
  match Sys2Proof.core.run k s with
  | .next t => t
  | .fault _ => s
  | .refused _ => s

/-- A draw of every value a reset leaves open. -/
def drawn : ResetDraw := ⟨9, 1#32, 2#32, 3#32, 4#32, 5#32⟩

/-! ### WellFormed refuses an ill-formed term for each check (R60, R7, R38) -/

theorem test_op6_illegal : Command.opLegal 0x00000006#32 = false := by decide

theorem test_op7_illegal : Command.opLegal 0x00000007#32 = false := by decide

theorem test_reserved_bit_illegal : Command.reservedClear 0x00000041#32 = false := by decide

theorem test_mode_on_read_counter_illegal : Command.modeClear 0x00000008#32 = false := by decide

theorem test_enable_on_read_rate_illegal : Command.legal 0x00000022#32 = false := by decide

theorem test_zero_width_illformed : Params.widthPositive { demoParams with divWidth := 0 } = false := by
  decide

theorem test_field_beyond_register_illformed :
    Params.fieldFits { demoParams with divLsb := 24 } = false := by decide

theorem test_shared_address_illformed :
    Params.addressesDistinct { demoParams with addrClockSel := 0x14#32 } = false := by decide

theorem test_demo_params_wellformed : demoParams.wf = true := by decide

/-! ### Decoding (R56 to R60; 95 L2-B1, L2-E) -/

theorem test_decode_read_counter :
    decode ⟨0b00000000000000000000000000000000#32, 1#32, 2#32⟩ = .ok .readCounter := by rfl

theorem test_decode_clock_set :
    decode ⟨0b00000000000000000000000000110001#32, 1#32, 2#32⟩ = .ok (.clockSet .clk40_44 true) := by
  rfl

theorem test_decode_clock_set_off :
    decode ⟨0b00000000000000000000000000001001#32, 1#32, 2#32⟩ = .ok (.clockSet .clk20_22 false) := by
  rfl

theorem test_decode_read_rate :
    decode ⟨0b00000000000000000000000000000010#32, 1#32, 2#32⟩ = .ok .readRate := by rfl

theorem test_decode_is_after :
    decode ⟨0b00000000000000000000000000000011#32, 1#32, 2#32⟩ = .ok (.isAfterMsecs 1#32 2#32) := by
  rfl

theorem test_decode_delay :
    decode ⟨0b00000000000000000000000000000100#32, 1#32, 2#32⟩ = .ok (.delay 1#32) := by rfl

theorem test_decode_udelay :
    decode ⟨0b00000000000000000000000000000101#32, 1#32, 2#32⟩ = .ok (.udelay 1#32) := by rfl

theorem test_decode_rejects_op6 : decode ⟨0x00000006#32, 0#32, 0#32⟩ = .error .reservedOp := by rfl

theorem test_decode_rejects_op6_with_mode :
    decode ⟨0x0000003E#32, 0#32, 0#32⟩ = .error .modeOrEnableSet := by rfl

theorem test_decode_rejects_mode :
    decode ⟨0x00000008#32, 0#32, 0#32⟩ = .error .modeOrEnableSet := by rfl

theorem test_decode_rejects_bit31 :
    decode ⟨0x80000003#32, 0#32, 0#32⟩ = .error .reservedBitsSet := by rfl

/-- The table's numbering: `A` is bits 63:32 and `B` bits 95:64 (log 14); bits from `nbits` up are 0. -/
theorem test_table_word_operands :
    decodeTableWord 96 0x0000000900000007_00000003 = some (.isAfterMsecs 7#32 9#32) ∧
      decodeTableWord 32 0x0000000900000007_00000003 = some (.isAfterMsecs 0#32 0#32) := by
  constructor <;> rfl

theorem test_encode_clock_set : (encode (.clockSet .clk80_88 true)).cmd = 0x00000039#32 := by rfl

theorem test_asm_clock_set : (Instr.clockSet .clk40_44 true).asmOperands = ["CLK40_44", "1"] := by rfl

/-- From reset, a command placed at the port is the first thing the block runs (log 10). -/
theorem test_first_step_runs_placed_command :
    step (State.reset.withFetchWord 32 0x31) =
      exec (.clockSet .clk40_44 true) (State.reset.withFetchWord 32 0x31) := by rfl

/-! ### READ_COUNTER (95 L2-A) -/

/-- A3: torn across the 32-bit wrap, HIGH_FIRST. -/
theorem test_read_counter_torn_high_first :
    field State.result (exec .readCounter
      (demo 0x100000000 40#32 (.busy (.readCounter (.second 0xFFFF#16))))) = some 0xFFFF0000#32 := by
  decide

/-- A7: torn, LOW_FIRST. -/
theorem test_read_counter_torn_low_first :
    field State.result (exec .readCounter
      (demoLow 0x00020002 40#32 (.busy (.readCounter (.second 0xFFF8#16))))) = some 0x0002FFF8#32 := by
  decide

/-! ### CLOCK_SET and READ_RATE (95 L2-B, P1) -/

/-- L2-B3: PLL_ADDAC 0x00000A1F at lsb 5, width 9 gives RATE 40. -/
theorem test_clock_set_rate :
    field State.rate (exec (.clockSet .osc40 false) (demo 0 0#32 .idle)) = some 40#32 := by decide

/-- L2-B1: CLOCK_SET CLK40_44, 1 writes 0x72. -/
theorem test_clock_set_select :
    field State.clockSel (exec (.clockSet .clk40_44 true)
      (demo 0 0#32 (.busy (.clockSet .clk40_44 true .write)))) = some 0x00000072#32 := by decide

/-- P1: READ_RATE gives 44. -/
theorem test_read_rate : field State.result (exec .readRate (demo 0 44#32 .idle)) = some 44#32 := by
  decide

/-- L2-B5: before any CLOCK_SET, FAULT_CMD is 2 and RESULT is unchanged. -/
theorem test_read_rate_unconfigured :
    field (fun t => (t.fault, t.faultCmd, t.result)) (exec .readRate (fresh .fault .idle)) =
      some (.rateUninit, 2#32, 7#32) := by decide

/-! ### IS_AFTER_MSECS (95 L2-C) -/

/-- C4 (the §8 scenario as 90_conflicts C1 settles it): delta 106, threshold 0, answer 0. -/
theorem test_is_after_wrap_scenario :
    field State.result (exec (.isAfterMsecs 4294967290#32 0#32)
      (demo 100 20#32 (.busy (.isAfterMsecs 4294967290#32 0#32 (.second 0#16 20#32))))) = some 0#32 := by
  decide

/-- C9: the product wraps to 16, delta 17000, answer 1. -/
theorem test_is_after_product_wraps :
    field State.result (exec (.isAfterMsecs 0#32 0x10000001#32)
      (demo 17000 16#32 (.busy (.isAfterMsecs 0#32 0x10000001#32 (.second 0#16 16#32))))) =
      some 1#32 := by decide

/-! ### DELAY and UDELAY (95 L2-D) -/

/-- D9: the poll at delta 4294966999 goes on. -/
theorem test_delay_below_window :
    field State.opstate (exec (.delay 4294967#32)
      (demo 4294966999 1#32 (.busy (.delay 4294967#32 (.pollSecond 0#32 4294967#32 0xFFFF#16))))) =
      some (.busy (.delay 4294967#32 (.poll 0#32 4294967#32))) := by decide

/-- D9: the poll at delta 4294967000 returns. -/
theorem test_delay_at_window :
    field State.opstate (exec (.delay 4294967#32)
      (demo 4294967000 1#32 (.busy (.delay 4294967#32 (.pollSecond 0#32 4294967#32 0xFFFF#16))))) =
      some .idle := by decide

/-- D6: `wt` is 400, and the poll at delta 399 goes on. -/
theorem test_udelay_below_threshold :
    field State.opstate (exec (.udelay 10#32)
      (demo 399 40#32 (.busy (.udelay 10#32 (.pollSecond 0#32 400#32 0#16))))) =
      some (.busy (.udelay 10#32 (.poll 0#32 400#32))) := by decide

/-- D6: the poll at delta 400 returns. -/
theorem test_udelay_at_threshold :
    field State.opstate (exec (.udelay 10#32)
      (demo 400 40#32 (.busy (.udelay 10#32 (.pollSecond 0#32 400#32 0#16))))) = some .idle := by decide

/-! ### Faults and reset (95 L2-E, D14) -/

/-- L2-E: the word 0x00000008 faults, with the word recorded. -/
theorem test_illegal_word_faults :
    field (fun t => (t.fault, t.faultCmd, t.opstate, t.bus))
      (step ((demo 0 40#32 .idle).withFetchWord 32 8)) =
      some (.illegalCommand, 8#32, .faulted, []) := by decide

/-- D14: a reset during a poll abandons the loop. -/
theorem test_reset_during_poll :
    field (fun t => (t.opstate, t.rateValid, t.n))
      (step (envTurn [⟨1, 0#32, some drawn, none⟩]
        (demo 5 40#32 (.busy (.delay 5#32 (.poll 0#32 200#32)))))) = some (.idle, false, 9) := by decide

/-! ### Witnesses: a state and operands that meet the hypotheses of each statement -/

theorem witness_EncodeOfDecode_delay : decode ⟨4#32, 9#32, 8#32⟩ = .ok (.delay 9#32) := by rfl

theorem witness_EncodeOfDecode_isAfter :
    decode ⟨3#32, 9#32, 8#32⟩ = .ok (.isAfterMsecs 9#32 8#32) := by rfl

theorem witness_IgnoredOperands_readRate : decode ⟨2#32, 0#32, 0xFFFFFFFF#32⟩ = .ok .readRate := by rfl

theorem witness_IgnoredOperands_clockSet :
    decode ⟨0x39#32, 5#32, 6#32⟩ = .ok (.clockSet .clk80_88 true) := by rfl

theorem witness_IgnoredOperands_udelay : decode ⟨5#32, 7#32, 6#32⟩ = .ok (.udelay 7#32) := by rfl

theorem witness_OpcodeTable :
    (⟨"CLOCK_SET", 0x00000001#32, 0xFFFFFFC7#32⟩ : OpcodeRow) ∈ opcodeTable ∧
      (0x39#32 : Word) &&& 0xFFFFFFC7#32 = 1#32 := by decide

/-- A command waits at the port of an IDLE block whose move it is. -/
def presented (c : Command) : State := { demo 0x0001FFFF 40#32 .idle with port := some c }

theorem witness_StepRuns_idle :
    (presented ⟨0#32, 0#32, 0#32⟩).turn = .block ∧ (presented ⟨0#32, 0#32, 0#32⟩).opstate = .idle ∧
      (presented ⟨0#32, 0#32, 0#32⟩).port = some ⟨0#32, 0#32, 0#32⟩ ∧
      decode ⟨0#32, 0#32, 0#32⟩ = .ok .readCounter := ⟨rfl, rfl, rfl, rfl⟩

theorem witness_StepRuns_busy :
    (demo 0 1#32 (.busy (.delay 1#32 (.poll 0#32 1#32)))).turn = .block ∧
      (demo 0 1#32 (.busy (.delay 1#32 (.poll 0#32 1#32)))).opstate =
        .busy (.delay 1#32 (.poll 0#32 1#32)) := ⟨rfl, rfl⟩

theorem witness_AcceptanceStarts : (demo 0 1#32 .idle).opstate = .idle := rfl

theorem witness_CommandWaits_faulted : (demo 0 1#32 .faulted).opstate = .faulted := rfl

theorem witness_CommandWaits_busy :
    ∃ b, (demo 0 1#32 (.busy (.delay 1#32 .start))).opstate = .busy b ∧ b.instr ≠ .delay 2#32 :=
  ⟨_, rfl, by decide⟩

/-- A BUSY block with another command at its port. -/
def waiting : State :=
  { demo 0 40#32 (.busy (.delay 1#32 (.poll 0#32 40#32))) with port := some ⟨2#32, 0#32, 0#32⟩ }

theorem witness_WaitingCommand_block :
    waiting.port = some ⟨2#32, 0#32, 0#32⟩ ∧ (∃ t, step waiting = .next t) ∧
      ¬ waiting.ResetComing ∧ waiting.opstate ≠ .idle := by
  refine ⟨rfl, ⟨_, rfl⟩, ?_, by decide⟩
  unfold State.ResetComing
  decide

theorem witness_WaitingCommand_environment :
    (envTurn [ticks 5] waiting).port = some ⟨2#32, 0#32, 0#32⟩ ∧
      (∃ t, step (envTurn [ticks 5] waiting) = .next t) ∧
      ¬ (envTurn [ticks 5] waiting).ResetComing ∧
      (envTurn [ticks 5] waiting).turn = .environment := by
  refine ⟨rfl, ⟨_, rfl⟩, ?_, rfl⟩
  unfold State.ResetComing
  decide

theorem witness_IllegalCommand :
    (presented ⟨0x41#32, 0#32, 0#32⟩).turn = .block ∧
      (presented ⟨0x41#32, 0#32, 0#32⟩).opstate = .idle ∧
      (presented ⟨0x41#32, 0#32, 0#32⟩).port = some ⟨0x41#32, 0#32, 0#32⟩ ∧
      (0x41#32 : Word).toNat / 64 ≠ 0 := ⟨rfl, rfl, rfl, by decide⟩

theorem witness_IdleBlockWaits :
    (demo 0 1#32 .idle).turn = .block ∧ (demo 0 1#32 .idle).opstate = .idle ∧
      (demo 0 1#32 .idle).port = none := ⟨rfl, rfl, rfl⟩

theorem witness_EnvironmentMove :
    (envTurn [ticks 5] (demo 3 1#32 .idle)).turn = .environment ∧
      (envTurn [ticks 5] (demo 3 1#32 .idle)).nextMove.reset = none := ⟨rfl, rfl⟩

theorem witness_BlockNeverWrites :
    (demo 3 1#32 .idle).turn = .block ∧ ∃ t, step (demo 3 1#32 .idle) = .next t := ⟨rfl, ⟨_, rfl⟩⟩

/-- A DELAY in POLL whose threshold no delta reaches, three scripted moves ahead. -/
def hang : State :=
  { demo 0 44#32 (.busy (.delay 97613#32 (.poll 0#32 4294972#32))) with
    env := [ticks 0xFFFFFFFF, ticks 7, ticks 9] }

theorem hang_steps : ∀ i, i < 4 → step (at_ hang i) = .next (at_ hang (i + 1)) := by
  intro i hi
  match i, hi with
  | 0, _ => rfl
  | 1, _ => rfl
  | 2, _ => rfl
  | 3, _ => rfl

theorem hang_no_reset : ∀ i, i < 4 → ¬ (at_ hang i).ResetComing := by
  intro i hi
  unfold State.ResetComing
  revert i
  decide

theorem witness_TrueCount : IsRunTo 4 (at_ hang) ∧ NoResetTo 4 (at_ hang) :=
  ⟨hang_steps, hang_no_reset⟩

theorem witness_UnreachableDelay :
    IsRunTo 4 (at_ hang) ∧ NoResetTo 4 (at_ hang) ∧
      (at_ hang 0).DelayPolling 97613#32 0#32 4294972#32 ∧ 4294967 < (4294972#32 : Word).toNat :=
  ⟨hang_steps, hang_no_reset, .inl rfl, by decide⟩

/-- 95 P5: a torn poll of a DELAY, with the draws of its trace. -/
def torn : State :=
  { demo 0x0001FFF8 40#32 (.busy (.delay 100#32 (.poll 0x0001FFF0#32 4000#32))) with
    env := [ticks 10, ticks 0] }

theorem witness_DelayReturns :
    IsRunTo 3 (at_ torn) ∧ NoResetTo 3 (at_ torn) ∧ (at_ torn 2).pollHits = true ∧
      (∀ i, i < 2 → (at_ torn i).pollHits = false) ∧
      (at_ torn 0).DelayPolling 100#32 0x0001FFF0#32 4000#32 := by
  refine ⟨?_, ?_, by decide, by decide, .inl rfl⟩
  · intro i hi
    match i, hi with
    | 0, _ => rfl
    | 1, _ => rfl
    | 2, _ => rfl
  · intro i hi
    unfold State.ResetComing
    revert i
    decide

/-- A UDELAY whose first poll, at delta 400, meets its threshold (95 D6). -/
def shortUdelay : State :=
  { demo 400 40#32 (.busy (.udelay 10#32 (.poll 0#32 400#32))) with env := [ticks 0, ticks 0] }

theorem witness_UdelayReturns :
    IsRunTo 3 (at_ shortUdelay) ∧ NoResetTo 3 (at_ shortUdelay) ∧
      (at_ shortUdelay 2).pollHits = true ∧
      (∀ i, i < 2 → (at_ shortUdelay i).pollHits = false) ∧
      (at_ shortUdelay 0).UdelayPolling 10#32 0#32 400#32 := by
  refine ⟨?_, ?_, by decide, by decide, .inl rfl⟩
  · intro i hi
    match i, hi with
    | 0, _ => rfl
    | 1, _ => rfl
    | 2, _ => rfl
  · intro i hi
    unfold State.ResetComing
    revert i
    decide

theorem witness_OnlyCondition_delay :
    (∃ t, step torn = .next t) ∧ ¬ torn.ResetComing ∧
      torn.DelayPolling 100#32 0x0001FFF0#32 4000#32 := by
  refine ⟨⟨_, rfl⟩, ?_, .inl rfl⟩
  unfold State.ResetComing
  decide

theorem witness_OnlyCondition_udelay :
    (∃ t, step shortUdelay = .next t) ∧ ¬ shortUdelay.ResetComing ∧
      shortUdelay.UdelayPolling 10#32 0#32 400#32 := by
  refine ⟨⟨_, rfl⟩, ?_, .inl rfl⟩
  unfold State.ResetComing
  decide

theorem witness_ReadCounter_start :
    (demo 1 1#32 .idle).opstate = .idle ∧ (demo 1 1#32 .idle).params.readOrder = .highFirst ∧
      (demoLow 1 1#32 .idle).opstate = .idle ∧ (demoLow 1 1#32 .idle).params.readOrder = .lowFirst :=
  ⟨rfl, rfl, rfl, rfl⟩

theorem witness_ReadCounter_second :
    (demo 1 1#32 (.busy (.readCounter (.second 2#16)))).opstate = .busy (.readCounter (.second 2#16)) ∧
      (demo 1 1#32 (.busy (.readCounter (.second 2#16)))).params.readOrder = .highFirst ∧
      (demoLow 1 1#32 (.busy (.readCounter (.second 2#16)))).opstate =
        .busy (.readCounter (.second 2#16)) ∧
      (demoLow 1 1#32 (.busy (.readCounter (.second 2#16)))).params.readOrder = .lowFirst :=
  ⟨rfl, rfl, rfl, rfl⟩

theorem witness_ExactRead : 0xFFFF ≤ 0xFFFF ∧ ExactRead 0xFFFF 0xFFFF := ⟨le_refl _, rfl⟩

/-- READ_COUNTER about to be torn by one tick (95 A2). -/
def tornRead : State := { presented ⟨0#32, 0#32, 0#32⟩ with env := [ticks 1] }

theorem witness_TornValue :
    tornRead.turn = .block ∧ tornRead.opstate = .idle ∧ tornRead.port = some ⟨0#32, 0#32, 0#32⟩ ∧
      decode ⟨0#32, 0#32, 0#32⟩ = .ok .readCounter ∧ tornRead.nextMove.reset = none ∧
      tornRead.params.readOrder = .highFirst ∧ tornRead.nextMove.ticks < 2 ^ 16 :=
  ⟨rfl, rfl, rfl, rfl, rfl, rfl, by decide⟩

/-- The same under LOW_FIRST. -/
def tornReadLow : State := { tornRead with params := { demoParams with readOrder := .lowFirst } }

theorem witness_TornValue_lowFirst :
    tornReadLow.turn = .block ∧ tornReadLow.opstate = .idle ∧
      tornReadLow.port = some ⟨0#32, 0#32, 0#32⟩ ∧ decode ⟨0#32, 0#32, 0#32⟩ = .ok .readCounter ∧
      tornReadLow.nextMove.reset = none ∧ tornReadLow.params.readOrder = .lowFirst ∧
      tornReadLow.nextMove.ticks < 2 ^ 16 :=
  ⟨rfl, rfl, rfl, rfl, rfl, rfl, by decide⟩

theorem witness_ClockSet :
    (demo 0 1#32 .idle).opstate = .idle ∧
      (demo 0 1#32 (.busy (.clockSet .osc40 true .write))).opstate =
        .busy (.clockSet .osc40 true .write) := ⟨rfl, rfl⟩

theorem witness_StoredRate :
    (demo 0 1#32 .idle).opstate = .idle ∧ (demo 5 9#32 .idle).opstate = .idle ∧
      (demo 0 1#32 .idle).pllAddac = (demo 5 9#32 .idle).pllAddac ∧
      (demo 0 1#32 .idle).params = (demo 5 9#32 .idle).params ∧
      (∃ t, exec (.clockSet .osc40 true) (demo 0 1#32 .idle) = .next t) ∧
      (∃ t, exec (.clockSet .clk80_88 false) (demo 5 9#32 .idle) = .next t) :=
  ⟨rfl, rfl, rfl, rfl, ⟨_, rfl⟩, ⟨_, rfl⟩⟩

theorem witness_RateRange : 1 ≤ demoParams.divWidth ∧ demoParams.divLsb + demoParams.divWidth ≤ 32 := by
  decide

theorem witness_ReadRate :
    ((demo 0 1#32 .idle).opstate = .idle ∧ (demo 0 1#32 .idle).rateValid = true) ∧
      ((fresh .zero .idle).opstate = .idle ∧ (fresh .zero .idle).rateValid = false ∧
        (fresh .zero .idle).params.ratePolicy = .zero) ∧
      ((fresh .fault .idle).opstate = .idle ∧ (fresh .fault .idle).rateValid = false ∧
        (fresh .fault .idle).params.ratePolicy = .fault) :=
  ⟨⟨rfl, rfl⟩, ⟨rfl, rfl, rfl⟩, ⟨rfl, rfl, rfl⟩⟩

theorem witness_OnlyClockSetAndReset_clockSet :
    (∃ t, step (presented ⟨1#32, 0#32, 0#32⟩) = .next t) ∧
      (presented ⟨1#32, 0#32, 0#32⟩).turn = .block ∧
      (presented ⟨1#32, 0#32, 0#32⟩).fetch = .run (.clockSet .osc40 false) ∧
      (presented ⟨1#32, 0#32, 0#32⟩).opstate ≠ .busy (.clockSet .osc40 false .write) :=
  ⟨⟨_, rfl⟩, rfl, rfl, by decide⟩

theorem witness_OnlyClockSetAndReset_reset :
    (envTurn [⟨0, 0#32, some drawn, none⟩] (demo 0 1#32 .idle)).ResetComing := by
  unfold State.ResetComing
  decide

theorem witness_OnlyClockSetAndReset_other :
    ¬ (demo 0 1#32 .idle).ResetComing ∧ (demo 0 1#32 .idle).fetch = .wait := by
  refine ⟨?_, rfl⟩
  unfold State.ResetComing
  decide

theorem witness_OnlyClockSetWritesSelect :
    (∃ t, step (demo 0 1#32 (.busy (.clockSet .osc40 true .write))) = .next t) ∧
      ¬ (demo 0 1#32 (.busy (.clockSet .osc40 true .write))).ResetComing ∧
      (demo 0 1#32 (.busy (.clockSet .osc40 true .write))).turn = .block := by
  refine ⟨⟨_, rfl⟩, ?_, rfl⟩
  unfold State.ResetComing
  decide

/-- The environment's move between steps (a) and (b) of a CLOCK_SET. -/
def betweenSteps : State := envTurn [ticks 5] (demo 0 1#32 (.busy (.clockSet .osc40 true .write)))

theorem witness_OnlyClockSetWritesSelect_other :
    (∃ t, step betweenSteps = .next t) ∧ ¬ betweenSteps.ResetComing ∧
      ¬ (betweenSteps.turn = .block ∧ ∃ m en, betweenSteps.opstate = .busy (.clockSet m en .write)) := by
  refine ⟨⟨_, rfl⟩, ?_, fun h => by cases h.1⟩
  unfold State.ResetComing
  decide

theorem witness_IsAfter_second :
    (demo 0 20#32 (.busy (.isAfterMsecs 1#32 2#32 (.second 3#16 20#32)))).opstate =
      .busy (.isAfterMsecs 1#32 2#32 (.second 3#16 20#32)) := rfl

theorem witness_Comparator_boundary :
    (2 ^ 32 - (0#32 : Word).toNat + (20000#32 : Word).toNat) % 2 ^ 32 / 1000 =
      (1#32 : Word).toNat * (20#32 : Word).toNat % 2 ^ 32 := by decide

theorem witness_Envelope_outside : 0 ≤ 2 ^ 32 ∧ ¬ InEnvelope 0 (2 ^ 32) := by
  unfold InEnvelope
  decide

theorem witness_ProductOverflow : 2 ^ 32 ≤ (0x10000001#32 : Word).toNat * (16#32 : Word).toNat := by
  decide

theorem witness_RangeCorners :
    ((fresh .zero .idle).rateValid = false ∧ (fresh .zero .idle).params.ratePolicy = .zero) ∧
    4294967 ≤ (4294967#32 : Word).toNat * (1#32 : Word).toNat % 2 ^ 32 ∧
      (5#32 : Word).toNat * (0#32 : Word).toNat % 2 ^ 32 = 0 := by decide

/-- IS_AFTER_MSECS at the port of a configured block, one scripted move ahead. -/
def compareCase : State := { presented ⟨3#32, 0#32, 1#32⟩ with env := [ticks 0] }

theorem witness_IsAfterWhole :
    compareCase.turn = .block ∧ compareCase.opstate = .idle ∧
      compareCase.port = some ⟨3#32, 0#32, 1#32⟩ ∧
      decode ⟨3#32, 0#32, 1#32⟩ = .ok (.isAfterMsecs 0#32 1#32) ∧ compareCase.rateValid = true ∧
      compareCase.nextMove.reset = none ∧
      ExactRead compareCase.n (compareCase.n + compareCase.nextMove.ticks) ∧
      compareCase.params.readOrder = .highFirst :=
  ⟨rfl, rfl, rfl, rfl, rfl, rfl, rfl, rfl⟩

/-- The same under LOW_FIRST, the two reads torn by the one tick between them. -/
def compareLow : State :=
  { compareCase with params := { demoParams with readOrder := .lowFirst }, env := [ticks 1] }

theorem witness_IsAfterWhole_lowFirst :
    compareLow.turn = .block ∧ compareLow.opstate = .idle ∧
      compareLow.port = some ⟨3#32, 0#32, 1#32⟩ ∧
      decode ⟨3#32, 0#32, 1#32⟩ = .ok (.isAfterMsecs 0#32 1#32) ∧ compareLow.rateValid = true ∧
      compareLow.nextMove.reset = none ∧ compareLow.params.readOrder = .lowFirst ∧
      ¬ ExactRead compareLow.n (compareLow.n + compareLow.nextMove.ticks) ∧
      ExactRead compareLow.n (compareLow.n + { compareLow with env := [ticks 0] }.nextMove.ticks) := by
  refine ⟨rfl, rfl, rfl, rfl, rfl, rfl, rfl, ?_, rfl⟩
  unfold ExactRead
  decide

theorem witness_Delay_second :
    (demo 0 1#32 (.busy (.delay 3#32 (.second 2#16)))).opstate = .busy (.delay 3#32 (.second 2#16)) ∧
      (demo 0 1#32 (.busy (.delay 3#32 (.second 2#16)))).rateValid = true ∧
      (fresh .fault (.busy (.delay 3#32 (.second 2#16)))).rateValid = false ∧
      (fresh .fault (.busy (.delay 3#32 (.second 2#16)))).params.ratePolicy = .fault ∧
      (fresh .zero (.busy (.delay 3#32 (.second 2#16)))).params.ratePolicy = .zero :=
  ⟨rfl, rfl, rfl, rfl, rfl⟩

theorem witness_Delay_poll :
    torn.opstate = .busy (.delay 100#32 (.poll 0x0001FFF0#32 4000#32)) ∧
      (at_ torn 2).opstate = .busy (.delay 100#32 (.pollSecond 0x0001FFF0#32 4000#32 1#16)) :=
  ⟨rfl, rfl⟩

theorem witness_Udelay_second :
    (demo 0 1#32 (.busy (.udelay 3#32 (.second 2#16)))).opstate = .busy (.udelay 3#32 (.second 2#16)) ∧
      (demo 0 1#32 (.busy (.udelay 3#32 (.second 2#16)))).rateValid = true ∧
      (fresh .fault (.busy (.udelay 3#32 (.second 2#16)))).rateValid = false ∧
      (fresh .zero (.busy (.udelay 3#32 (.second 2#16)))).params.ratePolicy = .zero :=
  ⟨rfl, rfl, rfl, rfl⟩

theorem witness_Udelay_poll :
    shortUdelay.opstate = .busy (.udelay 10#32 (.poll 0#32 400#32)) ∧
      (at_ shortUdelay 2).opstate = .busy (.udelay 10#32 (.pollSecond 0#32 400#32 0#16)) := ⟨rfl, rfl⟩

theorem witness_Polls : InEnvelope 5 (5 + (2 ^ 32 - 1)) := by
  unfold InEnvelope
  decide

theorem witness_DelayWindows : (4294967#32 : Word).toNat ≤ 4294967 := by decide

/-- A delay at the port, three scripted moves ahead. -/
def delayAtPort (c : Command) : State := { presented c with env := [ticks 3, ticks 4, ticks 5] }

/-- The same before any CLOCK_SET, under policy ZERO. -/
def delayUnconfigured (c : Command) : State :=
  { fresh .zero .idle with port := some c, env := [ticks 3, ticks 4, ticks 5] }

/-- DELAY 0 at the port of a configured block. -/
def zeroDelay : State := delayAtPort ⟨4#32, 0#32, 0#32⟩

theorem witness_ZeroThreshold_delay :
    (IsRunTo 7 (at_ zeroDelay) ∧ NoResetTo 7 (at_ zeroDelay)) ∧ (at_ zeroDelay 0).turn = .block ∧
      (at_ zeroDelay 0).opstate = .idle ∧ (at_ zeroDelay 0).port = some ⟨4#32, 0#32, 0#32⟩ ∧
      decode ⟨4#32, 0#32, 0#32⟩ = .ok (.delay 0#32) ∧
      ((at_ zeroDelay 0).rateValid = true ∧ 40#32 = (at_ zeroDelay 0).rate) ∧
      (0#32 : Word).toNat * (40#32 : Word).toNat % 2 ^ 32 = 0 := by
  refine ⟨?_, rfl, rfl, rfl, rfl, ⟨rfl, rfl⟩, by decide⟩
  refine ⟨fun i hi => ?_, by unfold NoResetTo State.ResetComing; decide⟩
  match i, hi with
  | 0, _ | 1, _ | 2, _ | 3, _ | 4, _ | 5, _ | 6, _ => rfl

theorem witness_ZeroThreshold_udelay_overflow :
    (IsRunTo 7 (at_ (delayAtPort ⟨5#32, 0x20000000#32, 9#32⟩)) ∧
        NoResetTo 7 (at_ (delayAtPort ⟨5#32, 0x20000000#32, 9#32⟩))) ∧
      decode ⟨5#32, 0x20000000#32, 9#32⟩ = .ok (.udelay 0x20000000#32) ∧
      ((at_ (delayAtPort ⟨5#32, 0x20000000#32, 9#32⟩) 0).rateValid = true ∧
        40#32 = (at_ (delayAtPort ⟨5#32, 0x20000000#32, 9#32⟩) 0).rate) ∧
      (0x20000000#32 : Word).toNat * (40#32 : Word).toNat % 2 ^ 32 = 0 := by
  refine ⟨?_, rfl, ⟨rfl, rfl⟩, by decide⟩
  refine ⟨fun i hi => ?_, by unfold NoResetTo State.ResetComing; decide⟩
  match i, hi with
  | 0, _ | 1, _ | 2, _ | 3, _ | 4, _ | 5, _ | 6, _ => rfl

theorem witness_ZeroThreshold_unconfigured :
    (IsRunTo 7 (at_ (delayUnconfigured ⟨4#32, 100#32, 0#32⟩)) ∧
        NoResetTo 7 (at_ (delayUnconfigured ⟨4#32, 100#32, 0#32⟩))) ∧
      ((at_ (delayUnconfigured ⟨4#32, 100#32, 0#32⟩) 0).rateValid = false ∧
        (at_ (delayUnconfigured ⟨4#32, 100#32, 0#32⟩) 0).params.ratePolicy = .zero) ∧
      (100#32 : Word).toNat * (0#32 : Word).toNat % 2 ^ 32 = 0 := by
  refine ⟨?_, ⟨rfl, rfl⟩, by decide⟩
  refine ⟨fun i hi => ?_, by unfold NoResetTo State.ResetComing; decide⟩
  match i, hi with
  | 0, _ | 1, _ | 2, _ | 3, _ | 4, _ | 5, _ | 6, _ => rfl

theorem witness_RaisedFault_illegal :
    (presented ⟨6#32, 0#32, 0#32⟩).fault = .none ∧
      field State.fault (step (presented ⟨6#32, 0#32, 0#32⟩)) = some .illegalCommand := by decide

theorem witness_RaisedFault_rate :
    (fresh .fault (.busy (.udelay 3#32 (.second 2#16)))).fault = .none ∧
      field State.fault (step (fresh .fault (.busy (.udelay 3#32 (.second 2#16))))) =
        some .rateUninit := by decide

theorem witness_OnlyResetLeavesFaulted :
    (demo 0 1#32 .faulted).opstate = .faulted ∧ (∃ t, step (demo 0 1#32 .faulted) = .next t) ∧
      ¬ (demo 0 1#32 .faulted).ResetComing ∧ (demo 0 1#32 .faulted).turn = .block := by
  refine ⟨rfl, ⟨_, rfl⟩, ?_, rfl⟩
  unfold State.ResetComing
  decide

theorem witness_ExternalReset :
    (envTurn [⟨0, 0#32, some drawn, none⟩] torn).turn = .environment ∧
      (envTurn [⟨0, 0#32, some drawn, none⟩] torn).nextMove.reset = some drawn ∧
      (fresh .zero .idle).params.ratePolicy = .zero ∧ torn.params.ratePolicy = .fault :=
  ⟨rfl, rfl, rfl, rfl⟩

theorem witness_ClockSelectIsNeverRead : (presented ⟨6#32, 0#32, 0#32⟩).turn = .block := rfl

theorem witness_OperationsTouch :
    (∃ t, exec (.delay 0#32) zeroDelay = .next t) ∧
      (∃ t, exec .readCounter tornRead = .next t) := ⟨⟨_, rfl⟩, ⟨_, rfl⟩⟩

theorem witness_Invariant : (fresh .fault .idle).Inv :=
  ⟨by decide, by decide, by decide, fun b h => by cases h⟩

end Sys2Proof.Tests
end

/-! Proofs: the parameters never change; the invariant holds at power-on and every step keeps it. -/

namespace Sys2Proof.Machine

/-! ### The parameters -/

/-- The environment's move, a reset included, leaves the parameters as they are. -/
@[simp] theorem State.envAdvance_params (s : State) : s.envAdvance.params = s.params := by
  cases hr : s.nextMove.reset with
  | none => simp [State.envAdvance_noReset hr]
  | some d => simp [State.envAdvance_reset hr]

@[simp] theorem runPhase_params (b : Busy) (s : State) : (runPhase b s).params = s.params := by
  obtain ⟨-, -, hparams, -⟩ := runPhase_keeps b s
  exact hparams

/-- Settles O21, by the cases of a step. -/
theorem parametersNeverChange : Obligations.ParametersNeverChange := by
  unfold Obligations.ParametersNeverChange
  intro s t h
  cases step_cases h with
  | environment _ eq => simp [eq]
  | faulted _ _ eq => simp [eq]
  | nothing _ _ _ eq => simp [eq]
  | illegal _ _ _ _ _ _ eq => simp [eq]
  | accepts _ _ _ _ _ _ eq => simp [eq]
  | continues _ _ _ eq => simp [eq]

/-! ### The rate's legal range -/

theorem one_le_divWidth_of_wf {p : Params} (h : p.wf = true) : 1 ≤ p.divWidth := by
  simp only [Params.wf, Params.widthPositive, Bool.and_eq_true, decide_eq_true_eq] at h
  obtain ⟨⟨hwidth, -⟩, -⟩ := h
  exact hwidth

/-- R23's range: halving a DIV field of `w` bits leaves a number of `w - 1` bits. -/
theorem rateOf_toNat_lt {p : Params} (hw : 1 ≤ p.divWidth) (pll : Word) :
    (rateOf p pll).toNat < 2 ^ (p.divWidth - 1) := by
  have hpow : 2 ^ p.divWidth = 2 ^ (p.divWidth - 1) * 2 := by
    rw [← Nat.pow_succ, Nat.succ_eq_add_one, Nat.sub_add_cancel hw]
  have hfield : (divField p pll).toNat < 2 ^ p.divWidth := (divField p pll).isLt
  calc (rateOf p pll).toNat
      ≤ (divField p pll).toNat / 2 := by
        simp only [rateOf, Config.rateShift, BitVec.toNat_setWidth, BitVec.toNat_ushiftRight,
          Nat.shiftRight_eq_div_pow, Nat.pow_one]
        exact Nat.mod_le _ _
    _ < 2 ^ (p.divWidth - 1) := by omega

/-! ### What an operation in progress holds -/

/-- A delay's `wt` is its operand `x` times the rate that `RateRead` gives (R89, R91). -/
def State.timesOk (s : State) (x : Word) (ph : DelayPhase) : Prop :=
  ∀ t1 wt, ph.times = some (t1, wt) → ∃ r, s.rateRead = some r ∧ wt = x * r

theorem State.progressOk_delay (s : State) (x : Word) (ph : DelayPhase) :
    s.progressOk (.delay x ph) ↔ s.timesOk x ph := Iff.rfl

theorem State.progressOk_udelay (s : State) (x : Word) (ph : DelayPhase) :
    s.progressOk (.udelay x ph) ↔ s.timesOk x ph := Iff.rfl

theorem State.timesOk_start (s : State) (x : Word) : s.timesOk x .start := nofun

theorem State.timesOk_second (s : State) (x : Word) (first : Half) :
    s.timesOk x (.second first) := nofun

theorem State.timesOk_poll_iff (s : State) (x t1 wt : Word) :
    s.timesOk x (.poll t1 wt) ↔ ∃ r, s.rateRead = some r ∧ wt = x * r := by
  simp [State.timesOk, DelayPhase.times]

theorem State.timesOk_pollSecond_iff (s : State) (x t1 wt : Word) (first : Half) :
    s.timesOk x (.pollSecond t1 wt first) ↔ ∃ r, s.rateRead = some r ∧ wt = x * r := by
  simp [State.timesOk, DelayPhase.times]

/-- Of the state, what an operation holds depends on the answer of `RateRead` alone. -/
theorem State.progressOk_congr {s t : State} (h : t.rateRead = s.rateRead) (b : Busy) :
    t.progressOk b ↔ s.progressOk b := by
  cases b with
  | readCounter | clockSet | readRate => exact Iff.rfl
  | isAfterMsecs t0 msecs ph => cases ph <;> simp [State.progressOk, h]
  | delay | udelay => simp [State.progressOk, h]

/-- An operation just accepted holds no rate and no threshold yet. -/
theorem State.progressOk_start (s : State) (i : Instr) : s.progressOk (Busy.start i) := by
  cases i with
  | readCounter | clockSet | readRate | isAfterMsecs => trivial
  | delay x => exact (s.progressOk_delay x .start).mpr (s.timesOk_start x)
  | udelay x => exact (s.progressOk_udelay x .start).mpr (s.timesOk_start x)

/-! ### The invariant and the state's operations -/

section

variable {s t : State}

theorem State.Inv.fault_eq_none (h : s.Inv) (ho : s.opstate ≠ .faulted) : s.fault = .none :=
  not_not.mp (mt h.fault_iff.mp ho)

/-- An idle, unfaulted and unconfigured block owes only its parameters. -/
theorem State.Inv.of_idle (hp : s.params.wf = true) (ho : s.opstate = .idle)
    (hf : s.fault = .none) (hv : s.rateValid = false) : s.Inv where
  params_wf := hp
  fault_iff := by simp [hf, ho]
  rate_range := by simp [hv]
  progress := by simp [ho]

/-- Where the parameters and the rate are kept, FAULT, OPSTATE and the progress remain to be shown. -/
theorem State.Inv.of_rate_kept (h : s.Inv) (hp : t.params = s.params) (hr : t.rate = s.rate)
    (hv : t.rateValid = s.rateValid) (hf : t.fault ≠ .none ↔ t.opstate = .faulted)
    (hb : ∀ b, t.opstate = .busy b → s.progressOk b) : t.Inv where
  params_wf := hp ▸ h.params_wf
  fault_iff := hf
  rate_range := by simpa only [hp, hr, hv] using h.rate_range
  progress b ho := (State.progressOk_congr (State.rateRead_congr hr hv hp) b).mpr (hb b ho)

/-- The invariant looks at five fields only. -/
theorem State.Inv.congr (h : s.Inv) (hp : t.params = s.params) (hr : t.rate = s.rate)
    (hv : t.rateValid = s.rateValid) (hf : t.fault = s.fault) (ho : t.opstate = s.opstate) :
    t.Inv :=
  h.of_rate_kept hp hr hv (by rw [hf, ho]; exact h.fault_iff) (by rw [ho]; exact h.progress)

theorem State.Inv.yield (h : s.Inv) : s.yield.Inv := h.congr rfl rfl rfl rfl rfl

theorem State.Inv.record (h : s.Inv) (a : BusAccess) : (s.record a).Inv :=
  h.congr rfl rfl rfl rfl rfl

theorem State.Inv.setResult (h : s.Inv) (v : Word) : (s.setResult v).Inv :=
  h.congr rfl rfl rfl rfl rfl

theorem State.Inv.setClockSel (h : s.Inv) (v : Word) : (s.setClockSel v).Inv :=
  h.congr rfl rfl rfl rfl rfl

theorem State.Inv.takeMove (h : s.Inv) : s.takeMove.Inv :=
  h.congr (by simp) (by simp) (by simp) (by simp) (by simp)

theorem State.Inv.advance (h : s.Inv) (m : EnvMove) : (s.advance m).Inv :=
  h.congr rfl rfl rfl rfl rfl

theorem State.Inv.resetWith (h : s.Inv) (d : ResetDraw) (waiting : Option Command) :
    (s.resetWith d waiting).Inv :=
  .of_idle h.params_wf rfl rfl rfl

theorem State.Inv.envAdvance (h : s.Inv) : s.envAdvance.Inv := by
  cases hr : s.nextMove.reset with
  | none => exact State.envAdvance_noReset hr ▸ h.takeMove.advance _
  | some d => exact State.envAdvance_reset hr ▸ h.takeMove.resetWith d _

theorem State.Inv.raiseFault (h : s.Inv) {code : FaultCode} (hc : code ≠ .none) (w : Word) :
    (s.raiseFault code w).Inv :=
  h.of_rate_kept rfl rfl rfl (by simp [hc]) (by simp)

theorem State.Inv.raiseRateUninit (h : s.Inv) (i : Instr) : (s.raiseRateUninit i).Inv :=
  h.raiseFault (by decide) _

theorem State.Inv.raiseIllegal (h : s.Inv) (w : Word) : (s.raiseIllegal w).Inv :=
  h.of_rate_kept rfl rfl rfl (by simp) (by simp)

theorem State.Inv.complete (h : s.Inv) (ho : s.opstate ≠ .faulted) : s.complete.Inv :=
  h.of_rate_kept rfl rfl rfl (by simp [h.fault_eq_none ho]) (by simp)

theorem State.Inv.continueAs (h : s.Inv) (ho : s.opstate ≠ .faulted) {b : Busy}
    (hb : s.progressOk b) : (s.continueAs b).Inv :=
  h.of_rate_kept rfl rfl rfl (by simp [h.fault_eq_none ho]) (by simpa using hb)

theorem State.Inv.accept (h : s.Inv) (ho : s.opstate = .idle) (i : Instr) : (s.accept i).Inv :=
  h.of_rate_kept rfl rfl rfl (by simp [h.fault_eq_none, ho]) (by simpa using s.progressOk_start i)

/-- RATE is written only while CLOCK_SET runs, so no operation holds an older rate (log 7). -/
theorem State.Inv.configure (h : s.Inv) {m : ClockMode} {en : Bool} {ph : SetPhase}
    (ho : s.opstate = .busy (.clockSet m en ph)) {r : Word}
    (hr : r.toNat < 2 ^ (s.params.divWidth - 1)) : (s.configure r).Inv where
  params_wf := h.params_wf
  fault_iff := h.fault_iff
  rate_range _ := hr
  progress b hb := by
    obtain rfl : Busy.clockSet m en ph = b := by simpa [ho] using hb
    trivial

/-! ### The invariant and the phases of the operations -/

theorem State.Inv.readCounterPhase (h : s.Inv) (ho : s.opstate ≠ .faulted) (ph : ReadPhase) :
    (readCounterPhase ph s).Inv := by
  cases ph with
  | start => exact (h.record _).continueAs ho trivial
  | second first => exact ((h.record _).setResult _).complete ho

theorem State.Inv.clockSetPhase (h : s.Inv) {m : ClockMode} {en : Bool} {ph : SetPhase}
    (ho : s.opstate = .busy (.clockSet m en ph)) : (clockSetPhase m en ph s).Inv := by
  have hf : s.opstate ≠ .faulted := by simp [ho]
  cases ph with
  | start =>
    have hr := rateOf_toNat_lt (one_le_divWidth_of_wf h.params_wf) s.pllAddac
    exact ((h.record _).configure ho hr).continueAs hf trivial
  | write => exact ((h.setClockSel _).record _).complete hf

theorem State.Inv.readRatePhase (h : s.Inv) (ho : s.opstate ≠ .faulted) :
    (readRatePhase s).Inv := by
  unfold Machine.readRatePhase
  split
  · exact h.raiseRateUninit _
  · exact (h.setResult _).complete ho

theorem State.Inv.isAfterPhase (h : s.Inv) (ho : s.opstate ≠ .faulted) (t0 msecs : Word)
    (ph : ComparePhase) : (isAfterPhase t0 msecs ph s).Inv := by
  cases ph with
  | start =>
    simp only [Machine.isAfterPhase]
    split
    · exact h.raiseRateUninit _
    next r hr => exact (h.record _).continueAs ho hr
  | second first r => exact ((h.record _).setResult _).complete ho

/-- One argument for DELAY and UDELAY: `hwrap` says that their progress is `timesOk`. The threshold is
taken from `RateRead` at the capture read and is carried unchanged through POLL. -/
theorem State.Inv.delayPhase (h : s.Inv) (i : Instr) (x : Word) {wrap : DelayPhase → Busy}
    (ends : Word → Word → Word → Bool) {ph : DelayPhase}
    (hwrap : ∀ (u : State) ph, u.progressOk (wrap ph) ↔ u.timesOk x ph)
    (ho : s.opstate = .busy (wrap ph)) : (delayPhase i x wrap ends ph s).Inv := by
  have hf : s.opstate ≠ .faulted := by simp [ho]
  have htimes : s.timesOk x ph := (hwrap s ph).mp (h.progress _ ho)
  cases ph with
  | start => exact (h.record _).continueAs hf ((hwrap _ _).mpr (State.timesOk_second _ _ _))
  | second first =>
    simp only [Machine.delayPhase]
    split
    · exact (h.record _).raiseRateUninit _
    next r hr =>
      exact (h.record _).continueAs hf
        ((hwrap _ _).mpr ((State.timesOk_poll_iff _ _ _ _).mpr ⟨r, hr, rfl⟩))
  | poll t1 wt =>
    have hwt := (s.timesOk_poll_iff x t1 wt).mp htimes
    exact (h.record _).continueAs hf
      ((hwrap _ _).mpr ((State.timesOk_pollSecond_iff _ _ _ _ _).mpr hwt))
  | pollSecond t1 wt first =>
    have hwt := (s.timesOk_pollSecond_iff x t1 wt first).mp htimes
    simp only [Machine.delayPhase]
    split
    · exact (h.record _).complete hf
    · exact (h.record _).continueAs hf ((hwrap _ _).mpr ((State.timesOk_poll_iff _ _ _ _).mpr hwt))

/-- The next phase of the operation in progress keeps the invariant. -/
theorem State.Inv.runPhase (h : s.Inv) {b : Busy} (ho : s.opstate = .busy b) :
    (runPhase b s).Inv := by
  have hf : s.opstate ≠ .faulted := by simp [ho]
  cases b with
  | readCounter ph => exact h.readCounterPhase hf ph
  | clockSet m en ph => exact h.clockSetPhase ho
  | readRate => exact h.readRatePhase hf
  | isAfterMsecs t0 msecs ph => exact h.isAfterPhase hf t0 msecs ph
  | delay x ph => exact h.delayPhase _ x _ (fun u => u.progressOk_delay x) ho
  | udelay x ph => exact h.delayPhase _ x _ (fun u => u.progressOk_udelay x) ho

end

/-- Settles O52: power-on is idle, unfaulted and unconfigured, and its parameters are well formed. -/
theorem resetMeetsTheInvariant : Obligations.ResetMeetsTheInvariant :=
  State.Inv.of_idle Config.params_wf rfl rfl rfl

/-- Settles O53, by the cases of a step: each is made of operations that keep the invariant. -/
theorem stepKeepsTheInvariant : Obligations.StepKeepsTheInvariant := by
  unfold Obligations.StepKeepsTheInvariant
  intro s t hs h
  cases step_cases h with
  | environment _ eq => exact eq ▸ hs.envAdvance
  | faulted _ _ eq => exact eq ▸ hs.yield
  | nothing _ _ _ eq => exact eq ▸ hs.yield
  | illegal _ _ c _ _ _ eq => exact eq ▸ (hs.raiseIllegal c.cmd).yield
  | accepts _ ho _ i _ _ eq => exact eq ▸ ((hs.accept ho i).runPhase (State.accept_opstate s i)).yield
  | continues _ _ ho eq => exact eq ▸ (hs.runPhase ho).yield

end Sys2Proof.Machine

/-! Proofs: the state. What each step writes and what it keeps; the environment's move and the reset; and that
nothing reads CLOCK_SEL. -/

namespace Sys2Proof.Machine

/-! ### The frame of one phase (R35) -/

/-- READ_COUNTER writes RESULT alone, beside its progress. -/
theorem readCounterPhase_keeps (ph : ReadPhase) (s : State) :
    (readCounterPhase ph s).clockSel = s.clockSel ∧ (readCounterPhase ph s).rate = s.rate ∧
      (readCounterPhase ph s).rateValid = s.rateValid ∧ (readCounterPhase ph s).fault = s.fault ∧
      (readCounterPhase ph s).faultCmd = s.faultCmd := by
  cases ph <;> simp [readCounterPhase]

/-- CLOCK_SET writes neither RESULT nor a fault. -/
theorem clockSetPhase_keeps (m : ClockMode) (en : Bool) (ph : SetPhase) (s : State) :
    (clockSetPhase m en ph s).result = s.result ∧ (clockSetPhase m en ph s).fault = s.fault ∧
      (clockSetPhase m en ph s).faultCmd = s.faultCmd := by
  cases ph <;> simp [clockSetPhase]

/-- Step (a) of CLOCK_SET leaves CLOCK_SEL to step (b) (R74). -/
theorem clockSetPhase_start_clockSel (m : ClockMode) (en : Bool) (s : State) :
    (clockSetPhase m en .start s).clockSel = s.clockSel := by
  simp [clockSetPhase]

/-- Step (b) of CLOCK_SET: the select value, with one write on the bus (R74). -/
theorem clockSetPhase_write_writes (m : ClockMode) (en : Bool) (s : State) :
    (clockSetPhase m en .write s).clockSel = selValue s.params.modeCode m en ∧
      (clockSetPhase m en .write s).bus =
        .write32 s.params.addrClockSel (selValue s.params.modeCode m en) :: s.bus := by
  simp [clockSetPhase]

theorem readRatePhase_keeps (s : State) :
    (readRatePhase s).clockSel = s.clockSel ∧ (readRatePhase s).rate = s.rate ∧
      (readRatePhase s).rateValid = s.rateValid := by
  unfold readRatePhase
  split <;> simp

theorem isAfterPhase_keeps (t0 msecs : Word) (ph : ComparePhase) (s : State) :
    (isAfterPhase t0 msecs ph s).clockSel = s.clockSel ∧
      (isAfterPhase t0 msecs ph s).rate = s.rate ∧
      (isAfterPhase t0 msecs ph s).rateValid = s.rateValid := by
  cases ph with
  | start => simp only [isAfterPhase]; split <;> simp
  | second first r => simp [isAfterPhase]

/-- DELAY and UDELAY write no state of the block but their progress and a fault. -/
theorem delayPhase_keeps (i : Instr) (x : Word) (wrap : DelayPhase → Busy)
    (ends : Word → Word → Word → Bool) (ph : DelayPhase) (s : State) :
    (delayPhase i x wrap ends ph s).clockSel = s.clockSel ∧
      (delayPhase i x wrap ends ph s).rate = s.rate ∧
      (delayPhase i x wrap ends ph s).rateValid = s.rateValid ∧
      (delayPhase i x wrap ends ph s).result = s.result := by
  cases ph with
  | start => simp [delayPhase]
  | second first => simp only [delayPhase]; split <;> simp
  | poll t1 wt => simp [delayPhase]
  | pollSecond t1 wt first => simp only [delayPhase]; split <;> simp

@[simp] theorem runPhase_n (b : Busy) (s : State) : (runPhase b s).n = s.n := by
  obtain ⟨hn, -⟩ := runPhase_keeps b s
  exact hn

@[simp] theorem runPhase_pllAddac (b : Busy) (s : State) :
    (runPhase b s).pllAddac = s.pllAddac := by
  obtain ⟨-, hpll, -⟩ := runPhase_keeps b s
  exact hpll

@[simp] theorem runPhase_port (b : Busy) (s : State) : (runPhase b s).port = s.port := by
  obtain ⟨-, -, -, hport, -⟩ := runPhase_keeps b s
  exact hport

/-- Only step (b) of CLOCK_SET writes CLOCK_SEL. -/
theorem runPhase_clockSel {b : Busy} (h : ∀ m en, b ≠ .clockSet m en .write) (s : State) :
    (runPhase b s).clockSel = s.clockSel := by
  cases b with
  | readCounter ph => simp [runPhase, readCounterPhase_keeps]
  | clockSet m en ph =>
    cases ph with
    | start => simp [runPhase, clockSetPhase_start_clockSel]
    | write => exact absurd rfl (h m en)
  | readRate => simp [runPhase, readRatePhase_keeps]
  | isAfterMsecs t0 msecs ph => simp [runPhase, isAfterPhase_keeps]
  | delay | udelay => simp [runPhase, delayPhase_keeps]

/-- Only CLOCK_SET writes RATE and RATE_VALID. -/
theorem runPhase_rate_rateValid {b : Busy} (h : ∀ m en, b.instr ≠ .clockSet m en) (s : State) :
    (runPhase b s).rate = s.rate ∧ (runPhase b s).rateValid = s.rateValid := by
  cases b with
  | readCounter ph => simp [runPhase, readCounterPhase_keeps]
  | clockSet m en ph => exact absurd rfl (h m en)
  | readRate => simp [runPhase, readRatePhase_keeps]
  | isAfterMsecs t0 msecs ph => simp [runPhase, isAfterPhase_keeps]
  | delay | udelay => simp [runPhase, delayPhase_keeps]

/-- CLOCK_SET and the delays give no result. -/
theorem runPhase_result {b : Busy} (hc : b.instr ≠ .readCounter) (hr : b.instr ≠ .readRate)
    (ha : ∀ t0 msecs, b.instr ≠ .isAfterMsecs t0 msecs) (s : State) :
    (runPhase b s).result = s.result := by
  cases b with
  | readCounter ph => exact absurd rfl hc
  | clockSet m en ph => simp [runPhase, clockSetPhase_keeps]
  | readRate => exact absurd rfl hr
  | isAfterMsecs t0 msecs ph => exact absurd rfl (ha t0 msecs)
  | delay | udelay => simp [runPhase, delayPhase_keeps]

/-- READ_COUNTER and CLOCK_SET raise no fault. -/
theorem runPhase_fault {b : Busy} (h : b.instr = .readCounter ∨ ∃ m en, b.instr = .clockSet m en)
    (s : State) :
    (runPhase b s).fault = s.fault ∧ (runPhase b s).faultCmd = s.faultCmd := by
  cases b with
  | readCounter ph => simp [runPhase, readCounterPhase_keeps]
  | clockSet m en ph => simp [runPhase, clockSetPhase_keeps]
  | readRate | isAfterMsecs | delay | udelay => simp [Busy.instr] at h

theorem Busy.start_ne_clockSet_write (i : Instr) (m : ClockMode) (en : Bool) :
    Busy.start i ≠ .clockSet m en .write := by
  cases i <;> simp

/-! ### What `exec` answers in every state -/

/-- The state `exec` answers with: an IDLE block accepts, a block that runs this operation goes on, any
other block lets the command wait (R55). -/
def State.execNext (i : Instr) (s : State) : State :=
  match s.opstate with
  | .idle => (runPhase (Busy.start i) (s.accept i)).yield
  | .busy b => if b.instr = i then (runPhase b s).yield else s.yield
  | .faulted => s.yield

/-- A block that runs another operation lets the command wait: the operation's arm runs a phase only where the
block is BUSY with that very operation. -/
theorem exec_of_busy_other {s : State} {i : Instr} {b : Busy} (ho : s.opstate = .busy b)
    (hi : b.instr ≠ i) : exec i s = .next s.yield := by
  cases i <;>
    simp only [exec, execReadCounter, execClockSet, execReadRate, execIsAfterMsecs, execDelay,
      execUdelay, State.engage_busy _ ho, ho]
  all_goals split
  all_goals simp_all [Busy.instr]

theorem exec_of_faulted {s : State} (i : Instr) (ho : s.opstate = .faulted) :
    exec i s = .next s.yield := by
  cases i <;>
    simp [exec, execReadCounter, execClockSet, execReadRate, execIsAfterMsecs, execDelay,
      execUdelay, State.engage_faulted, ho]

theorem exec_eq (i : Instr) (s : State) : exec i s = .next (s.execNext i) := by
  unfold State.execNext
  cases ho : s.opstate with
  | idle => exact exec_of_idle i ho
  | faulted => exact exec_of_faulted i ho
  | busy b =>
    by_cases hi : b.instr = i
    · simpa [hi] using exec_of_busy ho
    · simpa [hi] using exec_of_busy_other ho hi

/-! ### The block's move -/

/-- The state after the block's move (R55). -/
def State.blockNext (s : State) : State :=
  match s.fetch with
  | .run i => s.execNext i
  | .illegal w => (s.raiseIllegal w).yield
  | .wait => s.yield

theorem step_of_block {s : State} (ht : s.turn = .block) : step s = .next s.blockNext := by
  unfold step State.blockNext
  rw [ht]
  cases s.fetch with
  | run i => exact exec_eq i s
  | illegal w => rfl
  | wait => rfl

theorem step_of_environment {s : State} (ht : s.turn = .environment) :
    step s = .next s.envAdvance := by
  simp [step, ht]

/-- Settles O17, by the cases of a step on the block's turn: no phase and no fault writes N or PLL_ADDAC. -/
theorem blockNeverWritesCounterOrPll : Obligations.BlockNeverWritesCounterOrPll := by
  unfold Obligations.BlockNeverWritesCounterOrPll
  intro s t ht h
  cases step_cases h with
  | environment turn _ => simp [ht] at turn
  | faulted _ _ eq => simp [eq]
  | nothing _ _ _ eq => simp [eq]
  | illegal _ _ _ _ _ _ eq => simp [eq]
  | accepts _ _ _ _ _ _ eq => simp [eq]
  | continues _ _ _ eq => simp [eq]

/-! ### The environment's move -/

theorem State.nextMove_reset_eq_none {s : State} (h : ¬ s.ResetComing)
    (ht : s.turn = .environment) : s.nextMove.reset = none :=
  not_not.mp fun hr => h ⟨ht, hr⟩

/-- Settles O16: without a reset the environment's move is `State.advance`. -/
theorem environmentMoveAddsTicksAndSetsPll : Obligations.EnvironmentMoveAddsTicksAndSetsPll := by
  unfold Obligations.EnvironmentMoveAddsTicksAndSetsPll
  intro s ht hr
  refine ⟨s.takeMove.advance s.nextMove, ?_, ?_⟩
  · rw [step_of_environment ht, State.envAdvance_noReset hr]
  · simp

/-- Settles O48: with a reset the environment's move is `State.resetWith`. -/
theorem externalResetGivesTheResetState : Obligations.ExternalResetGivesTheResetState := by
  unfold Obligations.ExternalResetGivesTheResetState
  intro s d ht hr
  refine ⟨s.takeMove.resetWith d s.nextMove.present, ?_, ?_⟩
  · rw [step_of_environment ht, State.envAdvance_reset hr]
  · simp +contextual

/-- Settles O49: the three values R36 fixes are those `State.reset` writes out. -/
theorem powerOnStateIsIdleUnconfiguredUnfaulted :
    Obligations.PowerOnStateIsIdleUnconfiguredUnfaulted :=
  ⟨rfl, rfl, rfl⟩

/-! ### The counter -/

/-- One step without a reset: the environment's ticks are added, the block leaves N as it is (R19). -/
theorem n_le_of_step {s t : State} (h : step s = .next t) (hr : ¬ s.ResetComing) : s.n ≤ t.n := by
  cases ht : s.turn with
  | block => exact (blockNeverWritesCounterOrPll s t ht h).1.ge
  | environment =>
    rw [step_of_environment ht, State.envAdvance_noReset (State.nextMove_reset_eq_none hr ht),
      Host.Outcome.next.injEq] at h
    simp [← h]

/-- Settles O18, by induction on the later of the two instants. -/
theorem trueCountNeverDecreases : Obligations.TrueCountNeverDecreases := by
  unfold Obligations.TrueCountNeverDecreases
  intro r k hrun hno i j hij
  induction j, hij using Nat.le_induction with
  | base => exact fun _ => le_rfl
  | succ j _ ih =>
    intro hj
    calc (r i).n ≤ (r j).n := ih (by omega)
      _ ≤ (r (j + 1)).n := n_le_of_step (hrun j hj) (hno j hj)

/-- Settles O19: the halves of `CNT = N mod 2^32`, and the record's new entry is the only change. -/
theorem halfReadSamplesTheCounter : Obligations.HalfReadSamplesTheCounter := by
  unfold Obligations.HalfReadSamplesTheCounter
  intro s
  refine ⟨⟨?_, ?_⟩, fun h => ⟨_, rfl⟩⟩
  · rw [State.regRead16_val, halfOf_high_toNat]
    omega
  · rw [State.regRead16_val, halfOf_low_toNat]
    omega

/-! ### The rate's bound is met -/

/-- A DIV field inside the register reads all ones from a register of all ones. -/
theorem divField_allOnes {p : Params} (h : p.divLsb + p.divWidth ≤ 32) :
    divField p (BitVec.allOnes 32) = BitVec.allOnes p.divWidth := by
  ext i hi
  simp only [divField, BitVec.getElem_extractLsb', BitVec.getLsbD_allOnes, BitVec.getElem_allOnes,
    decide_eq_true_eq]
  omega

/-- The all-ones field, halved, is the greatest number of one bit less. -/
theorem rateOf_allOnes_toNat {p : Params} (hw : 1 ≤ p.divWidth)
    (h : p.divLsb + p.divWidth ≤ 32) :
    (rateOf p (BitVec.allOnes 32)).toNat = 2 ^ (p.divWidth - 1) - 1 := by
  have hpow : 2 ^ p.divWidth = 2 ^ (p.divWidth - 1) * 2 := by
    rw [← Nat.pow_succ, Nat.succ_eq_add_one, Nat.sub_add_cancel hw]
  have hle : 2 ^ p.divWidth ≤ 2 ^ 32 := Nat.pow_le_pow_right (by omega) (by omega)
  simp only [rateOf, Config.rateShift, divField_allOnes h, BitVec.toNat_setWidth,
    BitVec.toNat_ushiftRight, BitVec.toNat_allOnes, Nat.shiftRight_eq_div_pow, Nat.pow_one]
  omega

/-- Settles O27: the bound of `rateOf_toNat_lt`, and the register of all ones that meets it. -/
theorem rateLiesInItsLegalRange : Obligations.RateLiesInItsLegalRange := by
  unfold Obligations.RateLiesInItsLegalRange
  intro p hw h
  exact ⟨fun pll => Nat.le_sub_one_of_lt (rateOf_toNat_lt hw pll), rateOf_allOnes_toNat hw h⟩

/-! ### CLOCK_SEL is written by a reset and by step (b) of CLOCK_SET alone -/

/-- Every step without a reset, step (b) of CLOCK_SET set apart, keeps CLOCK_SEL. -/
theorem step_clockSel {s t : State} (h : step s = .next t) (hr : ¬ s.ResetComing)
    (hb : ¬ (s.turn = .block ∧ ∃ m en, s.opstate = .busy (.clockSet m en .write))) :
    t.clockSel = s.clockSel := by
  cases step_cases h with
  | environment turn eq =>
    simp [eq, State.envAdvance_noReset (State.nextMove_reset_eq_none hr turn)]
  | faulted _ _ eq => simp [eq]
  | nothing _ _ _ eq => simp [eq]
  | illegal _ _ _ _ _ _ eq => simp [eq]
  | accepts _ _ _ i _ _ eq => simp [eq, runPhase_clockSel (Busy.start_ne_clockSet_write i)]
  | continues turn b op eq =>
    have hne : ∀ m en, b ≠ .clockSet m en .write :=
      fun m en hbw => hb ⟨turn, m, en, hbw ▸ op⟩
    simp [eq, runPhase_clockSel hne]

/-- The step of a block in step (b) of CLOCK_SET. -/
theorem step_of_clockSet_write {s : State} {m : ClockMode} {en : Bool} (ht : s.turn = .block)
    (ho : s.opstate = .busy (.clockSet m en .write)) :
    step s = .next (clockSetPhase m en .write s).yield := by
  simp [step, ht, State.fetch, ho, exec_of_busy ho, runPhase]

/-- Settles O30: step (b) of CLOCK_SET evaluated, and the frame of every other step. -/
theorem onlyClockSetWritesClockSelect : Obligations.OnlyClockSetWritesClockSelect := by
  unfold Obligations.OnlyClockSetWritesClockSelect
  intro s t h hr
  refine ⟨fun m en ht ho => ?_, step_clockSel h hr⟩
  rw [step_of_clockSet_write ht ho, Host.Outcome.next.injEq] at h
  rw [← h]
  exact clockSetPhase_write_writes m en s

/-! ### R35's matrix -/

/-- What operation `i` leaves as it is between `s` and `t` (R35): the matrix without the port's row. -/
structure KeepsUnmarked (i : Instr) (s t : State) : Prop where
  inputs : t.n = s.n ∧ t.pllAddac = s.pllAddac ∧ t.params = s.params ∧ t.env = s.env ∧
    t.draws = s.draws
  clock : (∀ m en, i ≠ .clockSet m en) →
    t.clockSel = s.clockSel ∧ t.rate = s.rate ∧ t.rateValid = s.rateValid
  result : i ≠ .readCounter ∧ i ≠ .readRate ∧ (∀ t0 msecs, i ≠ .isAfterMsecs t0 msecs) →
    t.result = s.result
  fault : (i = .readCounter ∨ ∃ m en, i = .clockSet m en) →
    t.fault = s.fault ∧ t.faultCmd = s.faultCmd

/-- Ending the block's move touches none of the matrix. -/
theorem keepsUnmarked_yield (i : Instr) (s : State) : KeepsUnmarked i s s.yield := by
  constructor <;> simp

theorem runPhase_keepsUnmarked (b : Busy) (s : State) :
    KeepsUnmarked b.instr s (runPhase b s).yield where
  inputs := by
    obtain ⟨hn, hpll, hparams, -, henv, hdraws⟩ := runPhase_keeps b s
    exact ⟨hn, hpll, hparams, henv, hdraws⟩
  clock h :=
    ⟨runPhase_clockSel (fun m en hb => h m en (by rw [hb]; rfl)) s, runPhase_rate_rateValid h s⟩
  result h := by
    obtain ⟨hc, hr, ha⟩ := h
    exact runPhase_result hc hr ha s
  fault h := runPhase_fault h s

/-- Acceptance writes OPSTATE and the port alone, so what holds of the phase after it holds of both. -/
theorem KeepsUnmarked.of_accept {i : Instr} {s t : State} (h : KeepsUnmarked i (s.accept i) t) :
    KeepsUnmarked i s t :=
  ⟨h.inputs, h.clock, h.result, h.fault⟩

theorem execNext_keepsUnmarked (i : Instr) (s : State) : KeepsUnmarked i s (s.execNext i) := by
  unfold State.execNext
  split
  · have h := runPhase_keepsUnmarked (Busy.start i) (s.accept i)
    rw [Busy.instr_start] at h
    exact h.of_accept
  next b _ =>
    split
    next hi => exact hi ▸ runPhase_keepsUnmarked b s
    next => exact keepsUnmarked_yield i s
  · exact keepsUnmarked_yield i s

/-- The port is emptied by an acceptance alone (R55). -/
theorem execNext_port (i : Instr) (s : State) :
    (s.execNext i).port = s.port ∨ (s.opstate = .idle ∧ (s.execNext i).port = none) := by
  unfold State.execNext
  split
  next ho => exact .inr ⟨ho, by simp⟩
  next => split <;> simp
  next => simp

/-- Settles O50: `exec` runs a phase, after an acceptance or not, or waits. -/
theorem operationsTouchOnlyTheMarkedState : Obligations.OperationsTouchOnlyTheMarkedState := by
  unfold Obligations.OperationsTouchOnlyTheMarkedState
  intro i s t h
  rw [exec_eq, Host.Outcome.next.injEq] at h
  subst h
  obtain ⟨hinputs, hclock, hresult, hfault⟩ := execNext_keepsUnmarked i s
  exact ⟨hinputs, hclock, hresult, hfault, execNext_port i s⟩

/-! ### CLOCK_SEL is never read

Run from `s` with another value in CLOCK_SEL, a phase, an operation and the block's move each give the same
state, up to CLOCK_SEL: writing one value `w` there afterwards makes the two states equal. -/

section

variable (s : State) (v w : Word)

@[simp] theorem State.rateRead_setClockSel : (s.setClockSel v).rateRead = s.rateRead := rfl

theorem readRatePhase_setClockSel :
    (readRatePhase (s.setClockSel v)).setClockSel w = (readRatePhase s).setClockSel w := by
  simp only [readRatePhase, State.rateRead_setClockSel]
  cases s.rateRead <;> rfl

theorem isAfterPhase_setClockSel (t0 msecs : Word) (ph : ComparePhase) :
    (isAfterPhase t0 msecs ph (s.setClockSel v)).setClockSel w =
      (isAfterPhase t0 msecs ph s).setClockSel w := by
  cases ph with
  | start =>
    simp only [isAfterPhase, State.rateRead_setClockSel]
    cases s.rateRead <;> rfl
  | second first r => rfl

theorem delayPhase_setClockSel (i : Instr) (x : Word) (wrap : DelayPhase → Busy)
    (ends : Word → Word → Word → Bool) (ph : DelayPhase) :
    (delayPhase i x wrap ends ph (s.setClockSel v)).setClockSel w =
      (delayPhase i x wrap ends ph s).setClockSel w := by
  cases ph with
  | start | poll => rfl
  | second first =>
    simp only [delayPhase, State.rateRead_setClockSel]
    cases s.rateRead <;> rfl
  | pollSecond t1 wt first =>
    have hread : ((s.setClockSel v).readSecond first).1 = (s.readSecond first).1 := rfl
    simp only [delayPhase, hread]
    cases ends t1 wt (s.readSecond first).1 <;> rfl

theorem runPhase_setClockSel (b : Busy) :
    (runPhase b (s.setClockSel v)).setClockSel w = (runPhase b s).setClockSel w := by
  cases b with
  | readCounter ph => cases ph <;> rfl
  | clockSet m en ph => cases ph <;> rfl
  | readRate => exact readRatePhase_setClockSel s v w
  | isAfterMsecs t0 msecs ph => exact isAfterPhase_setClockSel s v w t0 msecs ph
  | delay | udelay => exact delayPhase_setClockSel s v w _ _ _ _ _

/-- The end of the block's move does not look at CLOCK_SEL. -/
theorem runPhase_yield_setClockSel (b : Busy) :
    (runPhase b (s.setClockSel v)).yield.setClockSel w = (runPhase b s).yield.setClockSel w :=
  congrArg State.yield (runPhase_setClockSel s v w b)

theorem State.execNext_setClockSel (i : Instr) :
    ((s.setClockSel v).execNext i).setClockSel w = (s.execNext i).setClockSel w := by
  simp only [State.execNext, State.setClockSel_opstate]
  cases s.opstate with
  | idle => exact runPhase_yield_setClockSel (s.accept i) v w _
  | faulted => rfl
  | busy b =>
    by_cases hi : b.instr = i
    · simp only [if_pos hi]
      exact runPhase_yield_setClockSel s v w b
    · simp only [if_neg hi]
      rfl

theorem State.blockNext_setClockSel :
    (s.setClockSel v).blockNext.setClockSel w = s.blockNext.setClockSel w := by
  have hfetch : (s.setClockSel v).fetch = s.fetch := rfl
  simp only [State.blockNext, hfetch]
  cases s.fetch with
  | run i => exact State.execNext_setClockSel s v w i
  | illegal | wait => rfl

end

/-- Settles O51: the block's move and `exec` are functions of the state that agree up to CLOCK_SEL. -/
theorem clockSelectIsNeverRead : Obligations.ClockSelectIsNeverRead := by
  unfold Obligations.ClockSelectIsNeverRead
  refine ⟨fun s v ht => ?_, fun i s v => ?_⟩
  · have ht' : (s.setClockSel v).turn = .block := ht
    exact ⟨_, _, step_of_block ht, step_of_block ht', State.blockNext_setClockSel s v 0#32⟩
  · exact ⟨_, _, exec_eq i s, exec_eq i (s.setClockSel v),
      State.execNext_setClockSel s v 0#32 i⟩

end Sys2Proof.Machine

/-! Proofs: the register bus. Every step answers a next state; and a step makes at most one access, which is one
of the four of R39 to R41. -/

namespace Sys2Proof.Machine

/-- Settles O15: the environment's move and the block's move both answer a next state. -/
theorem everyStepAnswersNext : Obligations.EveryStepAnswersNext := by
  unfold Obligations.EveryStepAnswersNext
  intro s
  cases ht : s.turn with
  | environment => exact ⟨_, step_of_environment ht⟩
  | block => exact ⟨_, step_of_block ht⟩

/-! ### What a block's move puts on the bus -/

/-- What the record of the bus gains from `s` to `t`: nothing, a half read or a PLL_ADDAC read with its value in
`s`, or a CLOCK_SEL write with the value `t` then holds (R39 to R42). -/
inductive BusStep (s t : State) : Prop
  | silent (bus : t.bus = s.bus)
  | readHalf (h : CounterHalf) (bus : t.bus = .read16 (halfAddr s.params h) (halfOf h s.n) :: s.bus)
  | readPll (bus : t.bus = .read32 s.params.addrPllAddac s.pllAddac :: s.bus)
  | writeClockSel (bus : t.bus = .write32 s.params.addrClockSel t.clockSel :: s.bus)

/-- The end of the block's move makes no access. -/
theorem BusStep.yield {s t : State} (h : BusStep s t) : BusStep s t.yield := by
  cases h with
  | silent bus => exact .silent bus
  | readHalf h bus => exact .readHalf h bus
  | readPll bus => exact .readPll bus
  | writeClockSel bus => exact .writeClockSel bus

/-- Acceptance makes no access and changes nothing that an access reads. -/
theorem BusStep.of_accept {i : Instr} {s t : State} (h : BusStep (s.accept i) t) : BusStep s t := by
  cases h with
  | silent bus => exact .silent bus
  | readHalf h bus => exact .readHalf h bus
  | readPll bus => exact .readPll bus
  | writeClockSel bus => exact .writeClockSel bus

/-- READ_COUNTER reads one half in each of its phases (R69). -/
theorem readCounterPhase_busStep (ph : ReadPhase) (s : State) : BusStep s (readCounterPhase ph s) := by
  cases ph with
  | start => exact .readHalf (firstHalf s.params.readOrder) rfl
  | second first => exact .readHalf (secondHalf s.params.readOrder) rfl

/-- CLOCK_SET reads PLL_ADDAC in step (a) and writes CLOCK_SEL in step (b) (R74). -/
theorem clockSetPhase_busStep (m : ClockMode) (en : Bool) (ph : SetPhase) (s : State) :
    BusStep s (clockSetPhase m en ph s) := by
  cases ph with
  | start => exact .readPll rfl
  | write => exact .writeClockSel rfl

/-- READ_RATE makes no access, whether it faults or not (R80). -/
theorem readRatePhase_busStep (s : State) : BusStep s (readRatePhase s) := by
  unfold readRatePhase
  cases s.rateRead with
  | none => exact .silent rfl
  | some r => exact .silent rfl

/-- IS_AFTER_MSECS reads one half in each of its phases, unless the rate check faults first (R83). -/
theorem isAfterPhase_busStep (t0 msecs : Word) (ph : ComparePhase) (s : State) :
    BusStep s (isAfterPhase t0 msecs ph s) := by
  cases ph with
  | start =>
    simp only [isAfterPhase]
    cases s.rateRead with
    | none => exact .silent rfl
    | some r => exact .readHalf (firstHalf s.params.readOrder) rfl
  | second first r => exact .readHalf (secondHalf s.params.readOrder) rfl

/-- A delay reads one half in each of its phases, the one that faults included (R89, R91). -/
theorem delayPhase_busStep (i : Instr) (x : Word) (wrap : DelayPhase → Busy)
    (ends : Word → Word → Word → Bool) (ph : DelayPhase) (s : State) :
    BusStep s (delayPhase i x wrap ends ph s) := by
  cases ph with
  | start => exact .readHalf (firstHalf s.params.readOrder) rfl
  | poll t1 wt => exact .readHalf (firstHalf s.params.readOrder) rfl
  | second first =>
    refine .readHalf (secondHalf s.params.readOrder) ?_
    simp only [delayPhase]
    cases s.rateRead <;> rfl
  | pollSecond t1 wt first =>
    refine .readHalf (secondHalf s.params.readOrder) ?_
    simp only [delayPhase]
    cases ends t1 wt (s.readSecond first).1 <;> rfl

theorem runPhase_busStep (b : Busy) (s : State) : BusStep s (runPhase b s) := by
  cases b with
  | readCounter ph => exact readCounterPhase_busStep ph s
  | clockSet m en ph => exact clockSetPhase_busStep m en ph s
  | readRate => exact readRatePhase_busStep s
  | isAfterMsecs t0 msecs ph => exact isAfterPhase_busStep t0 msecs ph s
  | delay | udelay => exact delayPhase_busStep _ _ _ _ _ s

/-! ### What a step puts on the bus -/

/-- The environment's move, a reset included, makes no access (R116). -/
@[simp] theorem State.envAdvance_bus (s : State) : s.envAdvance.bus = s.bus := by
  cases hr : s.nextMove.reset with
  | none => simp [State.envAdvance_noReset hr]
  | some d => simp [State.envAdvance_reset hr]

theorem step_busStep {s t : State} (h : step s = .next t) : BusStep s t := by
  cases step_cases h with
  | environment _ eq => exact .silent (by simp [eq])
  | faulted _ _ eq => exact .silent (by simp [eq])
  | nothing _ _ _ eq => exact .silent (by simp [eq])
  | illegal _ _ _ _ _ _ eq => exact .silent (by simp [eq])
  | accepts _ _ _ i _ _ eq => exact eq ▸ (runPhase_busStep (Busy.start i) (s.accept i)).yield.of_accept
  | continues _ b _ eq => exact eq ▸ (runPhase_busStep b s).yield

/-- Settles O20: the environment makes no access, and the block's move gains what `BusStep` lists. -/
theorem busCarriesOnlyTheFourAccesses : Obligations.BusCarriesOnlyTheFourAccesses := by
  unfold Obligations.BusCarriesOnlyTheFourAccesses
  intro s t h
  cases ht : s.turn with
  | environment =>
    rw [step_of_environment ht, Host.Outcome.next.injEq] at h
    exact .inl (h ▸ State.envAdvance_bus s)
  | block =>
    cases step_busStep h with
    | silent bus => exact .inl bus
    | readHalf half bus =>
      cases half with
      | high => exact .inr ⟨rfl, _, bus, .inl rfl⟩
      | low => exact .inr ⟨rfl, _, bus, .inr (.inl rfl)⟩
    | readPll bus => exact .inr ⟨rfl, _, bus, .inr (.inr (.inl rfl))⟩
    | writeClockSel bus => exact .inr ⟨rfl, _, bus, .inr (.inr (.inr rfl))⟩

end Sys2Proof.Machine

/-! Proofs: the encoding and the acceptance of commands. One equivalence says which commands decode to which
operation; the step's statements say what an IDLE, BUSY or FAULTED block makes of the command at its port. -/

namespace Sys2Proof

/-! ### Which commands decode to an operation -/

/-- The operand words of `c` are those of the operation, where the operation uses them (R59). -/
def Instr.OperandsFrom (c : Command) : Instr → Prop
  | .isAfterMsecs t0 msecs => c.a = t0 ∧ c.b = msecs
  | .delay msec => c.a = msec
  | .udelay usec => c.a = usec
  | .readCounter => True
  | .clockSet _ _ => True
  | .readRate => True

@[simp] theorem ClockMode.index_ofIndex (m : BitVec 2) : (ClockMode.ofIndex m).index = m := by
  revert m
  decide

/-- CLOCK_SET's command word as a number: OP is 1, the mode counts 8 and the flag 32 (R56). -/
theorem Instr.word_clockSet_toNat (m : ClockMode) (en : Bool) :
    (Instr.clockSet m en).word.toNat = 1 + 8 * m.index.toNat + 32 * en.toNat := by
  cases m <;> cases en <;> rfl

/-- EN as a flag is EN as a number. -/
theorem beq_one_toNat (e : BitVec 1) : (e == 1#1).toNat = e.toNat := by
  revert e
  decide

/-- A word with OP 1 and clear reserved bits is CLOCK_SET's word for its own mode and flag. -/
theorem eq_word_clockSet {w : Word} (hres : w.toNat / 64 = 0) (hop : w.toNat % 8 = 1) :
    w = (Instr.clockSet (ClockMode.ofIndex (modeField w)) (enField w == 1#1)).word := by
  obtain ⟨-, hmode, hen, -⟩ := fields_toNat w
  apply BitVec.eq_of_toNat_eq
  rw [Instr.word_clockSet_toNat, ClockMode.index_ofIndex, beq_one_toNat, hmode, hen]
  omega

/-- A word with clear reserved, mode and enable bits is its OP field. -/
theorem eq_ofNat_op {w : Word} {k : Nat} (hres : w.toNat / 64 = 0) (hmode : w.toNat / 8 % 8 = 0)
    (hop : w.toNat % 8 = k) : w = BitVec.ofNat 32 k := by
  apply BitVec.eq_of_toNat_eq
  rw [BitVec.toNat_ofNat]
  omega

/-- OP 1 with clear reserved bits is CLOCK_SET, whatever MODE and EN hold (R60). -/
theorem decode_of_op_one {c : Command} (hres : reservedField c.cmd = 0#26)
    (hop : opField c.cmd = 1#3) :
    decode c = .ok (.clockSet (ClockMode.ofIndex (modeField c.cmd)) (enField c.cmd == 1#1)) := by
  simp [decode, hres, hop]

/-- CLOCK_SET's word, field by field (R56). -/
theorem fields_word_clockSet (m : ClockMode) (en : Bool) :
    reservedField (Instr.clockSet m en).word = 0#26 ∧ opField (Instr.clockSet m en).word = 1#3 ∧
      ClockMode.ofIndex (modeField (Instr.clockSet m en).word) = m ∧
      (enField (Instr.clockSet m en).word == 1#1) = en := by
  cases m <;> cases en <;> exact ⟨rfl, rfl, rfl, rfl⟩

theorem decode_of_word_clockSet {c : Command} {m : ClockMode} {en : Bool}
    (hcmd : c.cmd = (Instr.clockSet m en).word) : decode c = .ok (.clockSet m en) := by
  obtain ⟨hres, hop, hmode, hen⟩ := fields_word_clockSet m en
  rw [← hcmd] at hres hop hmode hen
  rw [decode_of_op_one hres hop, hmode, hen]

/-- An operation's own word decodes to it wherever the operand words it uses are its operands. -/
theorem decode_of_word_and_operands {c : Command} {i : Instr} (hcmd : c.cmd = i.word)
    (hops : i.OperandsFrom c) : decode c = .ok i := by
  cases i with
  | clockSet m en => exact decode_of_word_clockSet hcmd
  | readCounter | readRate => simp [decode_eq, hcmd, Instr.word]
  | isAfterMsecs t0 msecs =>
    obtain ⟨rfl, rfl⟩ := hops
    simp [decode_eq, hcmd, Instr.word]
  | delay | udelay =>
    obtain rfl := hops
    simp [decode_eq, hcmd, Instr.word]

/-- A command that decodes carries the word of its operation, and its operands. -/
theorem word_and_operands_of_decode {c : Command} {i : Instr} (h : decode c = .ok i) :
    c.cmd = i.word ∧ i.OperandsFrom c := by
  rw [decode_eq] at h
  split_ifs at h with hres hclk hmode h0 h2 h3 h4 h5 <;> obtain rfl := Except.ok.inj h
  · exact ⟨eq_word_clockSet (not_not.mp hres) hclk, trivial⟩
  · exact ⟨eq_ofNat_op (not_not.mp hres) (not_not.mp hmode) h0, trivial⟩
  · exact ⟨eq_ofNat_op (not_not.mp hres) (not_not.mp hmode) h2, trivial⟩
  · exact ⟨eq_ofNat_op (not_not.mp hres) (not_not.mp hmode) h3, rfl, rfl⟩
  · exact ⟨eq_ofNat_op (not_not.mp hres) (not_not.mp hmode) h4, rfl⟩
  · exact ⟨eq_ofNat_op (not_not.mp hres) (not_not.mp hmode) h5, rfl⟩

/-- The decoder, said once: a command decodes to `i` exactly where it carries `i`'s word and operands. -/
theorem decode_eq_ok_iff (c : Command) (i : Instr) :
    decode c = .ok i ↔ c.cmd = i.word ∧ i.OperandsFrom c :=
  ⟨word_and_operands_of_decode, fun ⟨hcmd, hops⟩ => decode_of_word_and_operands hcmd hops⟩

/-! ### Decoder and encoder -/

theorem operandsFrom_encode (i : Instr) : i.OperandsFrom (encode i) := by
  cases i with
  | readCounter | clockSet | readRate => trivial
  | isAfterMsecs => exact ⟨rfl, rfl⟩
  | delay | udelay => rfl

/-- Settles O1: the encoder writes the operation's own word and operands. -/
theorem decodeOfEncodeIsTheInstruction : Obligations.DecodeOfEncodeIsTheInstruction := by
  unfold Obligations.DecodeOfEncodeIsTheInstruction
  exact fun i => (decode_eq_ok_iff _ i).mpr ⟨rfl, operandsFrom_encode i⟩

/-- Settles O2: the command has the operation's word and operands, which are what the encoder writes. -/
theorem encodeOfDecodeIsTheCommand : Obligations.EncodeOfDecodeIsTheCommand := by
  unfold Obligations.EncodeOfDecodeIsTheCommand
  intro c i h
  obtain ⟨hcmd, hops⟩ := (decode_eq_ok_iff c i).mp h
  refine ⟨hcmd.symm, ?_, ?_, ?_⟩
  · rintro t0 msecs rfl
    obtain ⟨ha, hb⟩ := hops
    exact ⟨ha, hb, ha.symm, hb.symm⟩
  · rintro x (rfl | rfl) <;> exact ⟨hops, Eq.symm hops, rfl⟩
  · rintro (rfl | rfl | ⟨m, en, rfl⟩) <;> exact ⟨rfl, rfl⟩

/-- Settles O3: the operand words that `Instr.OperandsFrom` leaves out are free. -/
theorem ignoredOperandWordsHaveNoEffect : Obligations.IgnoredOperandWordsHaveNoEffect := by
  unfold Obligations.IgnoredOperandWordsHaveNoEffect
  intro w a b a' b' i h
  obtain ⟨hcmd, hops⟩ := (decode_eq_ok_iff _ i).mp h
  refine ⟨fun hi => (decode_eq_ok_iff _ i).mpr ⟨hcmd, ?_⟩,
    fun hi => (decode_eq_ok_iff _ i).mpr ⟨hcmd, ?_⟩⟩
  · obtain rfl | rfl | ⟨m, en, rfl⟩ := hi <;> trivial
  · obtain ⟨x, rfl | rfl⟩ := hi <;> exact hops

/-- Settles O4, by the decoder's branches: the three that reject are R60's three conditions. -/
theorem decoderRejectsExactlyTheIllegalWords :
    Obligations.DecoderRejectsExactlyTheIllegalWords := by
  unfold Obligations.DecoderRejectsExactlyTheIllegalWords
  intro c
  rw [decode_eq]
  split_ifs with hres hclk hmode h0 h2 h3 h4 h5
  · exact iff_of_true ⟨_, rfl⟩ (.inr (.inl hres))
  · exact iff_of_false nofun (by omega)
  · exact iff_of_true ⟨_, rfl⟩ (.inr (.inr ⟨hclk, hmode⟩))
  -- OP is none of the six: 6 or 7.
  case neg => exact iff_of_true ⟨_, rfl⟩ (.inl (by omega))
  -- The operations but CLOCK_SET, each with its OP and clear bits above it.
  all_goals exact iff_of_false nofun (by omega)

/-! ### The opcode table -/

theorem opField_and (v w : Word) : opField (v &&& w) = opField v &&& opField w :=
  BitVec.extractLsb'_and ..

theorem reservedField_and (v w : Word) :
    reservedField (v &&& w) = reservedField v &&& reservedField w :=
  BitVec.extractLsb'_and ..

/-- CLOCK_SET's row says nothing of MODE and EN: its mask keeps OP and the reserved bits whole. -/
theorem decode_of_clockSet_row {c : Command} (h : c.cmd &&& 0xFFFFFFC7#32 = 1#32) :
    decode c = .ok (.clockSet (ClockMode.ofIndex (modeField c.cmd)) (enField c.cmd == 1#1)) := by
  have hop : opField c.cmd = 1#3 :=
    calc opField c.cmd
      _ = opField c.cmd &&& BitVec.allOnes 3 := BitVec.and_allOnes.symm
      _ = opField (c.cmd &&& 0xFFFFFFC7#32) := (opField_and c.cmd 0xFFFFFFC7#32).symm
      _ = 1#3 := congrArg opField h
  have hres : reservedField c.cmd = 0#26 :=
    calc reservedField c.cmd
      _ = reservedField c.cmd &&& BitVec.allOnes 26 := BitVec.and_allOnes.symm
      _ = reservedField (c.cmd &&& 0xFFFFFFC7#32) := (reservedField_and c.cmd 0xFFFFFFC7#32).symm
      _ = 0#26 := congrArg reservedField h
  exact decode_of_op_one hres hop

/-- A row whose mask is all ones matches one word alone. -/
theorem eq_of_full_mask {w p : Word} (h : w &&& 0xFFFFFFFF#32 = p) : w = p :=
  BitVec.and_allOnes.symm.trans h

/-- The table has a row for each operation, which its word matches. -/
theorem exists_opcodeRow (i : Instr) :
    ∃ r ∈ opcodeTable, r.mnemonic = i.mnemonic ∧ i.word &&& r.mask = r.pattern := by
  cases i with
  | clockSet m en =>
    refine ⟨⟨"CLOCK_SET", 0x00000001#32, 0xFFFFFFC7#32⟩, by simp [opcodeTable], rfl, ?_⟩
    cases m <;> cases en <;> rfl
  | readCounter | readRate | isAfterMsecs | delay | udelay =>
    simp [opcodeTable, Instr.mnemonic, Instr.word]

/-- Settles O5: a word decodes as its own operation, whose row it matches; and a row's mask and pattern fix
the word, or for CLOCK_SET its OP and reserved bits. -/
theorem decoderAgreesWithTheOpcodeTable : Obligations.DecoderAgreesWithTheOpcodeTable := by
  unfold Obligations.DecoderAgreesWithTheOpcodeTable
  intro c
  refine ⟨fun i h => ?_, fun r hr h => ?_⟩
  · obtain ⟨hcmd, -⟩ := (decode_eq_ok_iff c i).mp h
    exact hcmd ▸ exists_opcodeRow i
  · simp only [opcodeTable, List.mem_cons, List.not_mem_nil, or_false] at hr
    obtain rfl | rfl | rfl | rfl | rfl | rfl := hr
    · exact ⟨.readCounter, (decode_eq_ok_iff ..).mpr ⟨eq_of_full_mask h, trivial⟩, rfl⟩
    · exact ⟨_, decode_of_clockSet_row h, rfl⟩
    · exact ⟨.readRate, (decode_eq_ok_iff ..).mpr ⟨eq_of_full_mask h, trivial⟩, rfl⟩
    · exact ⟨.isAfterMsecs c.a c.b, (decode_eq_ok_iff ..).mpr ⟨eq_of_full_mask h, rfl, rfl⟩, rfl⟩
    · exact ⟨.delay c.a, (decode_eq_ok_iff ..).mpr ⟨eq_of_full_mask h, rfl⟩, rfl⟩
    · exact ⟨.udelay c.a, (decode_eq_ok_iff ..).mpr ⟨eq_of_full_mask h, rfl⟩, rfl⟩

/-- Settles O6: each word is its operation's, and the operands are 7 and 9 where they are used. -/
theorem writtenOutWordsDecode : Obligations.WrittenOutWordsDecode := by
  unfold Obligations.WrittenOutWordsDecode
  simp only [decode_eq_ok_iff]
  exact ⟨⟨rfl, trivial⟩, ⟨rfl, trivial⟩, ⟨rfl, trivial⟩, ⟨rfl, trivial⟩, ⟨rfl, rfl, rfl⟩, ⟨rfl, rfl⟩,
    ⟨rfl, rfl⟩⟩

namespace Machine

/-! ### The value formats -/

/-- Settles O7: the two halves read back from the composition as a number. -/
theorem composePlacesTheHalves : Obligations.ComposePlacesTheHalves := by
  unfold Obligations.ComposePlacesTheHalves
  intro hi lo
  have hhi := hi.isLt
  have hlo := lo.isLt
  refine ⟨rfl, BitVec.eq_of_toNat_eq ?_, BitVec.eq_of_toNat_eq ?_⟩
  · rw [BitVec.extractLsb'_toNat, compose_toNat, Nat.shiftRight_eq_div_pow]
    omega
  · rw [BitVec.extractLsb'_toNat, compose_toNat, Nat.shiftRight_eq_div_pow]
    omega

/-- Settles O8: the first clause is `selValue`'s definition, the second its eight values. -/
theorem selectValueIsBaseOrModeCode : Obligations.SelectValueIsBaseOrModeCode := by
  unfold Obligations.SelectValueIsBaseOrModeCode
  refine ⟨fun c m => ⟨rfl, rfl⟩, fun m => ?_⟩
  cases m <;> exact ⟨rfl, rfl⟩

/-! ### What the block makes of the command at its port -/

section

variable {s : State} {c : Command}

theorem State.fetch_busy {b : Busy} (ho : s.opstate = .busy b) : s.fetch = .run b.instr := by
  simp [State.fetch, ho]

theorem State.fetch_idle_none (ho : s.opstate = .idle) (hp : s.port = none) : s.fetch = .wait := by
  simp [State.fetch, ho, hp]

theorem State.fetch_idle_legal {i : Instr} (ho : s.opstate = .idle) (hp : s.port = some c)
    (hd : decode c = .ok i) : s.fetch = .run i := by
  simp [State.fetch, ho, hp, hd]

theorem State.fetch_idle_illegal {e : DecodeError} (ho : s.opstate = .idle) (hp : s.port = some c)
    (hd : decode c = .error e) : s.fetch = .illegal c.cmd := by
  simp [State.fetch, ho, hp, hd]

theorem step_of_fetch_run {i : Instr} (ht : s.turn = .block) (hf : s.fetch = .run i) :
    step s = exec i s := by
  simp [step, ht, hf]

theorem step_of_fetch_illegal {w : Word} (ht : s.turn = .block) (hf : s.fetch = .illegal w) :
    step s = .next (s.raiseIllegal w).yield := by
  simp [step, ht, hf]

theorem step_of_fetch_wait (ht : s.turn = .block) (hf : s.fetch = .wait) :
    step s = .next s.yield := by
  simp [step, ht, hf]

end

/-- Settles O9: what the block fetches is the decoded operation, or the one in progress. -/
theorem stepRunsTheDecodedInstruction : Obligations.StepRunsTheDecodedInstruction := by
  unfold Obligations.StepRunsTheDecodedInstruction
  exact ⟨fun s c i ht ho hp hd => step_of_fetch_run ht (State.fetch_idle_legal ho hp hd),
    fun s b ht ho => step_of_fetch_run ht (State.fetch_busy ho)⟩

/-- Settles O10: both sides run the first phase in the accepted state. -/
theorem acceptanceStartsTheOperation : Obligations.AcceptanceStartsTheOperation := by
  unfold Obligations.AcceptanceStartsTheOperation
  intro i s ho
  have hbusy := exec_of_busy (State.accept_opstate s i)
  rw [Busy.instr_start] at hbusy
  exact (exec_of_idle i ho).trans hbusy.symm

/-- Settles O11: the operation's arm finds no BUSY state of its own. -/
theorem commandWaitsWhileBusyOrFaulted : Obligations.CommandWaitsWhileBusyOrFaulted := by
  unfold Obligations.CommandWaitsWhileBusyOrFaulted
  rintro i s (ho | ⟨b, ho, hi⟩)
  · exact exec_of_faulted i ho
  · exact exec_of_busy_other ho hi

/-- Settles O12, by the cases of a step: the port is emptied only where an IDLE block takes its command. -/
theorem waitingCommandStaysAtThePort : Obligations.WaitingCommandStaysAtThePort := by
  unfold Obligations.WaitingCommandStaysAtThePort
  intro s t c hp h hr hw
  have not_idle (ht : s.turn = .block) : s.opstate ≠ .idle := hw.resolve_right (by simp [ht])
  cases step_cases h with
  | environment turn eq =>
    simp [eq, State.envAdvance_noReset (State.nextMove_reset_eq_none hr turn), hp]
  | faulted _ _ eq => simp [eq, hp]
  | nothing turn op _ _ => exact absurd op (not_idle turn)
  | illegal turn op _ _ _ _ _ => exact absurd op (not_idle turn)
  | accepts turn op _ _ _ _ _ => exact absurd op (not_idle turn)
  | continues _ _ _ eq => simp [eq, hp]

/-- Settles O13: the decoder rejects the word, so the block's move is `State.raiseIllegal`. -/
theorem illegalCommandFaultsOnAcceptance : Obligations.IllegalCommandFaultsOnAcceptance := by
  unfold Obligations.IllegalCommandFaultsOnAcceptance
  intro s c ht ho hp hillegal
  obtain ⟨e, he⟩ := (decoderRejectsExactlyTheIllegalWords c).mpr hillegal
  exact step_of_fetch_illegal ht (State.fetch_idle_illegal ho hp he)

/-- Settles O14: with nothing at the port the block's move is `State.yield`. -/
theorem idleBlockWaitsForACommand : Obligations.IdleBlockWaitsForACommand := by
  unfold Obligations.IdleBlockWaitsForACommand
  exact fun s ht ho hp => step_of_fetch_wait ht (State.fetch_idle_none ho hp)

/-- Settles O47: a FAULTED block's step is the environment's move or a wait. -/
theorem onlyResetLeavesFaulted : Obligations.OnlyResetLeavesFaulted := by
  unfold Obligations.OnlyResetLeavesFaulted
  intro s t hf h hr
  cases step_cases h with
  | environment turn eq =>
    simp [eq, State.envAdvance_noReset (State.nextMove_reset_eq_none hr turn), hf, turn]
  | faulted _ _ eq => simp [eq, hf]
  | nothing _ op _ _ => simp [hf] at op
  | illegal _ op _ _ _ _ _ => simp [hf] at op
  | accepts _ op _ _ _ _ _ => simp [hf] at op
  | continues _ _ op _ => simp [hf] at op

end Machine

end Sys2Proof

/-! Proofs: the Counter Reader. The two halves compose to the torn value, which is the exact count where no carry
passes between the reads; and what an operation of two phases answers over its three steps. -/

namespace Sys2Proof.Machine

/-! ### The halves and their composition in arithmetic -/

theorem halfOf_high_eq_ofNat (n : Nat) : halfOf .high n = BitVec.ofNat 16 (n / 2 ^ 16) :=
  BitVec.eq_of_toNat_eq (by simp)

theorem halfOf_low_eq_ofNat (n : Nat) : halfOf .low n = BitVec.ofNat 16 n :=
  BitVec.eq_of_toNat_eq (by simp)

theorem compose_eq_ofNat (hi lo : Half) :
    compose hi lo = BitVec.ofNat 32 (hi.toNat * 2 ^ 16 + lo.toNat) := by
  rw [← compose_toNat, BitVec.ofNat_toNat, BitVec.setWidth_eq]

/-- The high half of one count over the low half of another, modulo 2^32. -/
theorem compose_halves (nh nl : Nat) :
    compose (halfOf .high nh) (halfOf .low nl) =
      BitVec.ofNat 32 (nh / 2 ^ 16 * 2 ^ 16 + nl % 2 ^ 16) := by
  apply BitVec.eq_of_toNat_eq
  rw [compose_toNat, halfOf_high_toNat, halfOf_low_toNat, BitVec.toNat_ofNat]
  omega

/-! ### Torn and exact reads (R71, R72) -/

/-- R72 under HIGH_FIRST: the carries the high half missed are gone from the later count. -/
theorem composeRead_highFirst_torn {na nb : Nat} (h : na ≤ nb) :
    composeRead .highFirst (halfOf .high na) (halfOf .low nb) =
      BitVec.ofNat 32 (nb - carries na nb * 2 ^ 16) := by
  have hvalue : na / 2 ^ 16 * 2 ^ 16 + nb % 2 ^ 16 = nb - carries na nb * 2 ^ 16 := by
    unfold carries
    omega
  exact (compose_halves na nb).trans (congrArg _ hvalue)

/-- R72 under LOW_FIRST: the carries the high half has seen are added to the earlier count. -/
theorem composeRead_lowFirst_torn {na nb : Nat} (h : na ≤ nb) :
    composeRead .lowFirst (halfOf .low na) (halfOf .high nb) =
      BitVec.ofNat 32 (na + carries na nb * 2 ^ 16) := by
  have hvalue : nb / 2 ^ 16 * 2 ^ 16 + na % 2 ^ 16 = na + carries na nb * 2 ^ 16 := by
    unfold carries
    omega
  exact (compose_halves nb na).trans (congrArg _ hvalue)

theorem carries_eq_zero_of_exactRead {na nb : Nat} (h : ExactRead na nb) : carries na nb = 0 :=
  Nat.sub_eq_zero_of_le (Nat.le_of_eq h.symm)

/-- Fewer than 2^16 ticks carry out of bit 15 at most once. -/
theorem carries_le_one {na k : Nat} (hk : k < 2 ^ 16) : carries na (na + k) ≤ 1 := by
  unfold carries
  omega

/-- Settles O23: the torn values of R72 with no carry. -/
theorem exactReadIsTheCountAtTheLowRead : Obligations.ExactReadIsTheCountAtTheLowRead := by
  unfold Obligations.ExactReadIsTheCountAtTheLowRead
  intro na nb hle hexact
  rw [composeRead_highFirst_torn hle, composeRead_lowFirst_torn hle,
    carries_eq_zero_of_exactRead hexact]
  simp

/-! ### The phases of READ_COUNTER -/

section

variable {s : State}

/-- The first phase, after acceptance: the half that READ_ORDER names first is read and held (R69). -/
theorem exec_readCounter_of_idle (ho : s.opstate = .idle) :
    exec .readCounter s = .next { s with
      port := none
      opstate := .busy (.readCounter (.second (halfOf (firstHalf s.params.readOrder) s.n)))
      bus := .read16 (halfAddr s.params (firstHalf s.params.readOrder))
        (halfOf (firstHalf s.params.readOrder) s.n) :: s.bus
      turn := .environment } :=
  exec_of_idle _ ho

/-- The second phase: the other half is read, and RESULT is the composition (R69, R70). -/
theorem exec_readCounter_of_second {first : Half}
    (ho : s.opstate = .busy (.readCounter (.second first))) :
    exec .readCounter s = .next { s with
      result := composeRead s.params.readOrder first (halfOf (secondHalf s.params.readOrder) s.n)
      opstate := .idle
      bus := .read16 (halfAddr s.params (secondHalf s.params.readOrder))
        (halfOf (secondHalf s.params.readOrder) s.n) :: s.bus
      turn := .environment } :=
  exec_of_busy ho

end

/-- Settles O22: the two phases of READ_COUNTER, with the halves of either order in arithmetic. -/
theorem readCounterReadsBothHalvesAndComposes : Obligations.ReadCounterReadsBothHalvesAndComposes := by
  unfold Obligations.ReadCounterReadsBothHalvesAndComposes
  refine ⟨fun a b => (decode_eq_ok_iff _ _).mpr ⟨rfl, trivial⟩, fun s =>
    ⟨fun ho hord => ?_, fun ho hord => ?_, fun first ho hord => ?_, fun first ho hord => ?_⟩⟩
  · rw [exec_readCounter_of_idle ho, hord, ← halfOf_high_eq_ofNat]
    rfl
  · rw [exec_readCounter_of_idle ho, hord, ← halfOf_low_eq_ofNat]
    rfl
  · rw [exec_readCounter_of_second ho, hord, ← halfOf_low_eq_ofNat, ← halfOf_low_toNat,
      ← compose_eq_ofNat]
    rfl
  · rw [exec_readCounter_of_second ho, hord, ← halfOf_high_eq_ofNat, ← halfOf_high_toNat,
      ← compose_eq_ofNat]
    rfl

/-! ### A whole operation of two phases -/

/-- For any machine: a run starts with its first step. -/
theorem coreRun_succ_of_step (M : Host.Core) {s t : M.State} (h : M.step s = .next t) (k : Nat) :
    M.run (k + 1) s = M.run k t := by
  simp [Host.Core.run, h]

theorem run_succ_of_step {s t : State} (h : step s = .next t) (k : Nat) :
    Sys2Proof.core.run (k + 1) s = Sys2Proof.core.run k t :=
  coreRun_succ_of_step Sys2Proof.core h k

/-- The environment's next move depends on its script and the count of its draws alone. -/
theorem State.nextMove_congr {s t : State} (henv : t.env = s.env) (hdraws : t.draws = s.draws) :
    t.nextMove = s.nextMove := by
  unfold State.nextMove
  rw [henv, hdraws]

/-- The state between the two phases of the operation `i`: accepted, its first phase run, the environment's move
made. -/
def State.afterFirstPhase (i : Instr) (s : State) : State :=
  (runPhase (Busy.start i) (s.accept i)).yield.takeMove.advance s.nextMove

@[simp] theorem State.afterFirstPhase_n (i : Instr) (s : State) :
    (s.afterFirstPhase i).n = s.n + s.nextMove.ticks := by
  simp [State.afterFirstPhase]

@[simp] theorem State.afterFirstPhase_params (i : Instr) (s : State) :
    (s.afterFirstPhase i).params = s.params := by
  simp [State.afterFirstPhase]

/-- The block's move that accepts `i`, then the environment's, without a reset. -/
theorem run_two_of_idle {s : State} {c : Command} {i : Instr} (ht : s.turn = .block)
    (ho : s.opstate = .idle) (hp : s.port = some c) (hd : decode c = .ok i)
    (hr : s.nextMove.reset = none) (k : Nat) :
    Sys2Proof.core.run (k + 2) s = Sys2Proof.core.run k (s.afterFirstPhase i) := by
  have hfirst : step s = .next (runPhase (Busy.start i) (s.accept i)).yield :=
    (step_of_fetch_run ht (State.fetch_idle_legal ho hp hd)).trans (exec_of_idle i ho)
  have hmove : (runPhase (Busy.start i) (s.accept i)).yield.nextMove = s.nextMove := by
    obtain ⟨-, -, -, -, henv, hdraws⟩ := runPhase_keeps (Busy.start i) (s.accept i)
    exact State.nextMove_congr henv hdraws
  rw [run_succ_of_step hfirst, run_succ_of_step (step_of_environment (State.yield_turn _)),
    State.envAdvance_noReset (by rw [hmove]; exact hr), hmove, State.afterFirstPhase]

/-- The three steps of an operation whose first phase leaves it BUSY with `b`. -/
theorem run_three_of_idle {s : State} {c : Command} {i : Instr} {b : Busy} (ht : s.turn = .block)
    (ho : s.opstate = .idle) (hp : s.port = some c) (hd : decode c = .ok i)
    (hr : s.nextMove.reset = none) (hb : (s.afterFirstPhase i).opstate = .busy b) :
    Sys2Proof.core.run 3 s = .next (runPhase b (s.afterFirstPhase i)).yield := by
  have hsecond : step (s.afterFirstPhase i) = .next (runPhase b (s.afterFirstPhase i)).yield :=
    (step_of_fetch_run rfl (State.fetch_busy hb)).trans (exec_of_busy hb)
  rw [run_two_of_idle ht ho hp hd hr 1, run_succ_of_step hsecond]
  rfl

/-! ### READ_COUNTER over its three steps -/

theorem State.afterFirstPhase_readCounter_opstate (s : State) :
    (s.afterFirstPhase .readCounter).opstate =
      .busy (.readCounter (.second (halfOf (firstHalf s.params.readOrder) s.n))) := by
  simp [State.afterFirstPhase, runPhase, readCounterPhase]

theorem runPhase_readCounter_second_result (first : Half) (s : State) :
    (runPhase (.readCounter (.second first)) s).result =
      composeRead s.params.readOrder first (halfOf (secondHalf s.params.readOrder) s.n) := rfl

/-- Settles O24: the run's result is the composition of the held half with the other half after the environment's
move, whose torn values are R72's. -/
theorem readCounterGivesTheTornValue : Obligations.ReadCounterGivesTheTornValue := by
  unfold Obligations.ReadCounterGivesTheTornValue
  intro s c ht ho hp hd hr
  have hle : s.n ≤ s.n + s.nextMove.ticks := Nat.le_add_right _ _
  refine ⟨_, run_three_of_idle ht ho hp hd hr (State.afterFirstPhase_readCounter_opstate s), rfl, ?_⟩
  simp only [State.yield_n, State.yield_result, runPhase_n, runPhase_readCounter_second_result,
    State.afterFirstPhase_params, State.afterFirstPhase_n, true_and]
  refine ⟨fun hord => ?_, fun hord => ?_, carries_le_one⟩
  · rw [hord]
    exact composeRead_highFirst_torn hle
  · rw [hord]
    exact composeRead_lowFirst_torn hle

/-! ### IS_AFTER_MSECS over its three steps -/

theorem boolWord_eq_one_or_zero (b : Bool) : boolWord b = 1#32 ∨ boolWord b = 0#32 := by
  cases b
  · exact .inr rfl
  · exact .inl rfl

/-- A configured block passes the rate check and holds the first half with its RATE (R83). -/
theorem State.afterFirstPhase_isAfterMsecs {s : State} (t0 msecs : Word) (hv : s.rateValid = true) :
    (s.afterFirstPhase (.isAfterMsecs t0 msecs)).opstate =
        .busy (.isAfterMsecs t0 msecs
          (.second (halfOf (firstHalf s.params.readOrder) s.n) s.rate)) ∧
      (s.afterFirstPhase (.isAfterMsecs t0 msecs)).rate = s.rate ∧
      (s.afterFirstPhase (.isAfterMsecs t0 msecs)).bus.length = s.bus.length + 1 := by
  have hrate : s.rateRead = some s.rate := (State.rateRead_eq_some_iff _ _).mpr (.inl ⟨hv, rfl⟩)
  simp [State.afterFirstPhase, runPhase, isAfterPhase, hrate]

/-- The second phase compares the composed count under the rate it holds, with one more access (R83). -/
theorem runPhase_isAfterMsecs_second (t0 msecs : Word) (first : Half) (r : Word) (s : State) :
    (runPhase (.isAfterMsecs t0 msecs (.second first r)) s).result =
        boolWord (isAfter (composeRead s.params.readOrder first
          (halfOf (secondHalf s.params.readOrder) s.n)) t0 msecs r) ∧
      (runPhase (.isAfterMsecs t0 msecs (.second first r)) s).bus.length = s.bus.length + 1 :=
  ⟨rfl, rfl⟩

/-- Settles O36: the run's result is the answer for the composed count, which O23 gives for an exact read. -/
theorem isAfterAnswersByTheComposedCount : Obligations.IsAfterAnswersByTheComposedCount := by
  unfold Obligations.IsAfterAnswersByTheComposedCount
  intro s c t0 msecs ht ho hp hd hv hr
  have hle : s.n ≤ s.n + s.nextMove.ticks := Nat.le_add_right _ _
  obtain ⟨hop, hrate, hbus⟩ := State.afterFirstPhase_isAfterMsecs t0 msecs hv
  refine ⟨_, run_three_of_idle ht ho hp hd hr hop, rfl, hrate, ?_⟩
  simp only [State.yield_result, State.yield_bus, runPhase_isAfterMsecs_second,
    State.afterFirstPhase_params, State.afterFirstPhase_n, hbus, true_and]
  refine ⟨fun hexact hord => ?_, fun hexact hord => ?_, boolWord_eq_one_or_zero _⟩
  · obtain ⟨hhigh, -⟩ := exactReadIsTheCountAtTheLowRead _ _ hle hexact
    rw [hord, firstHalf, secondHalf, hhigh, cntOf]
  · obtain ⟨-, hlow⟩ := exactReadIsTheCountAtTheLowRead _ _ hle hexact
    rw [hord, firstHalf, secondHalf, hlow, cntOf]

end Sys2Proof.Machine

/-! Proofs: the Clock Configurator. The rate as arithmetic on PLL_ADDAC, the phases of CLOCK_SET and READ_RATE, and
that only a reset and step (a) of CLOCK_SET change the configuration state and RATE. -/

namespace Sys2Proof.Machine

/-! ### The phases of CLOCK_SET -/

/-- R75: the DIV field as a number, halved and rounded down. -/
theorem rateOf_eq_ofNat (p : Params) (pll : Word) :
    rateOf p pll = BitVec.ofNat 32 (pll.toNat / 2 ^ p.divLsb % 2 ^ p.divWidth / 2) := by
  apply BitVec.eq_of_toNat_eq
  simp only [rateOf, divField, Config.rateShift, BitVec.toNat_setWidth, BitVec.toNat_ushiftRight,
    BitVec.extractLsb'_toNat, BitVec.toNat_ofNat, Nat.shiftRight_eq_div_pow, Nat.pow_one]

section

variable {s : State} {m : ClockMode} {en : Bool}

/-- Step (a), after acceptance: PLL_ADDAC is read and its rate stored (R74). -/
theorem exec_clockSet_of_idle (ho : s.opstate = .idle) :
    exec (.clockSet m en) s = .next { s with
      port := none
      rate := rateOf s.params s.pllAddac
      rateValid := true
      opstate := .busy (.clockSet m en .write)
      bus := .read32 s.params.addrPllAddac s.pllAddac :: s.bus
      turn := .environment } :=
  exec_of_idle _ ho

/-- Step (a) of an operation accepted before: the port stays as it is (R74). -/
theorem exec_clockSet_of_start (ho : s.opstate = .busy (.clockSet m en .start)) :
    exec (.clockSet m en) s = .next { s with
      rate := rateOf s.params s.pllAddac
      rateValid := true
      opstate := .busy (.clockSet m en .write)
      bus := .read32 s.params.addrPllAddac s.pllAddac :: s.bus
      turn := .environment } :=
  exec_of_busy ho

/-- Step (b): the select value is written (R74, R77). -/
theorem exec_clockSet_of_write (ho : s.opstate = .busy (.clockSet m en .write)) :
    exec (.clockSet m en) s = .next { s with
      clockSel := selValue s.params.modeCode m en
      opstate := .idle
      bus := .write32 s.params.addrClockSel (selValue s.params.modeCode m en) :: s.bus
      turn := .environment } :=
  exec_of_busy ho

end

/-- Settles O25: the word is the encoder's, and steps (a) and (b) are the two phases, with the rate in arithmetic. -/
theorem clockSetStoresTheRateThenWritesSelect :
    Obligations.ClockSetStoresTheRateThenWritesSelect := by
  unfold Obligations.ClockSetStoresTheRateThenWritesSelect
  refine fun s m en => ⟨fun a b => (decode_eq_ok_iff _ _).mpr ⟨rfl, trivial⟩, fun ho => ?_,
    fun ho => exec_clockSet_of_write ho⟩
  rw [exec_clockSet_of_idle ho, rateOf_eq_ofNat]

/-- Settles O26: step (a) stores `rateOf` of the parameters and PLL_ADDAC, which the two states share. -/
theorem storedRateDependsOnPllAlone : Obligations.StoredRateDependsOnPllAlone := by
  unfold Obligations.StoredRateDependsOnPllAlone
  intro s s' t t' m m' en en' ho ho' hpll hparams h h'
  rw [exec_clockSet_of_idle ho, Host.Outcome.next.injEq] at h
  rw [exec_clockSet_of_idle ho', Host.Outcome.next.injEq] at h'
  subst h h'
  exact ⟨congrArg₂ rateOf hparams hpll, rfl, rfl⟩

/-! ### Which steps change the configuration state -/

/-- A reset makes the block UNCONFIGURED (R81). -/
theorem rateValid_of_reset {s t : State} (h : step s = .next t) (hr : s.ResetComing) :
    t.rateValid = false := by
  obtain ⟨ht, hreset⟩ := hr
  obtain ⟨d, hd⟩ := Option.ne_none_iff_exists'.mp hreset
  rw [step_of_environment ht, State.envAdvance_reset hd, Host.Outcome.next.injEq] at h
  rw [← h]
  rfl

/-- A block that turns to CLOCK_SET and is not in step (b) is in step (a): it accepts the command, or did so
before. -/
theorem State.opstate_of_fetch_clockSet {s : State} {m : ClockMode} {en : Bool}
    (hf : s.fetch = .run (.clockSet m en)) (hw : s.opstate ≠ .busy (.clockSet m en .write)) :
    s.opstate = .idle ∨ s.opstate = .busy (.clockSet m en .start) := by
  cases ho : s.opstate with
  | idle => exact .inl rfl
  | faulted => simp [State.fetch, ho] at hf
  | busy b =>
    rw [State.fetch_busy ho, Fetched.run.injEq] at hf
    cases b with
    | readCounter | readRate | isAfterMsecs | delay | udelay => simp [Busy.instr] at hf
    | clockSet m' en' ph =>
      obtain ⟨rfl, rfl⟩ := Instr.clockSet.inj hf
      cases ph with
      | start => exact .inr rfl
      | write => exact absurd ho hw

/-- Step (a) of CLOCK_SET makes the block CONFIGURED with the rate of the PLL value it samples (R81). -/
theorem rate_of_clockSet_first {s t : State} {m : ClockMode} {en : Bool} (h : step s = .next t)
    (ht : s.turn = .block) (hf : s.fetch = .run (.clockSet m en))
    (hw : s.opstate ≠ .busy (.clockSet m en .write)) :
    t.rateValid = true ∧ t.rate = rateOf s.params s.pllAddac := by
  rw [step_of_fetch_run ht hf] at h
  obtain ho | ho := State.opstate_of_fetch_clockSet hf hw
  · rw [exec_clockSet_of_idle ho, Host.Outcome.next.injEq] at h
    exact h ▸ ⟨rfl, rfl⟩
  · rw [exec_clockSet_of_start ho, Host.Outcome.next.injEq] at h
    exact h ▸ ⟨rfl, rfl⟩

/-- Of all phases only step (a) of CLOCK_SET writes RATE and RATE_VALID: step (b) leaves them. -/
theorem runPhase_rate_of_ne_start {b : Busy} (h : ∀ m en, b ≠ .clockSet m en .start) (s : State) :
    (runPhase b s).rate = s.rate ∧ (runPhase b s).rateValid = s.rateValid := by
  cases b with
  | clockSet m en ph =>
    cases ph with
    | start => exact absurd rfl (h m en)
    | write => exact ⟨rfl, rfl⟩
  | readCounter | readRate | isAfterMsecs | delay | udelay =>
    exact runPhase_rate_rateValid (by simp [Busy.instr]) s

/-- Every step that is neither a reset nor step (a) of a CLOCK_SET keeps RATE and RATE_VALID. -/
theorem step_rate_rateValid {s t : State} (h : step s = .next t) (hr : ¬ s.ResetComing)
    (hc : ¬ (s.turn = .block ∧ ∃ m en, s.fetch = .run (.clockSet m en) ∧
      s.opstate ≠ .busy (.clockSet m en .write))) :
    t.rate = s.rate ∧ t.rateValid = s.rateValid := by
  cases step_cases h with
  | environment turn eq =>
    simp [eq, State.envAdvance_noReset (State.nextMove_reset_eq_none hr turn)]
  | faulted _ _ eq => simp [eq]
  | nothing _ _ _ eq => simp [eq]
  | illegal _ _ _ _ _ _ eq => simp [eq]
  | accepts turn op c i port dec eq =>
    have hi : ∀ m en, Busy.start i ≠ .clockSet m en .start := by
      intro m en hb
      have hfetch := State.fetch_idle_legal op port dec
      rw [← Busy.instr_start i, hb] at hfetch
      exact hc ⟨turn, m, en, hfetch, by simp [op]⟩
    exact eq ▸ runPhase_rate_of_ne_start hi (s.accept i)
  | continues turn b op eq =>
    have hb : ∀ m en, b ≠ .clockSet m en .start := by
      rintro m en rfl
      exact hc ⟨turn, m, en, State.fetch_busy op, by simp [op]⟩
    exact eq ▸ runPhase_rate_of_ne_start hb s

/-- Settles O29: the reset, step (a) of CLOCK_SET, and the frame of every other step. -/
theorem onlyClockSetAndResetChangeTheRate : Obligations.OnlyClockSetAndResetChangeTheRate := by
  unfold Obligations.OnlyClockSetAndResetChangeTheRate
  exact fun s t h => ⟨rateValid_of_reset h, fun m en ht hf hw => rate_of_clockSet_first h ht hf hw,
    step_rate_rateValid h⟩

/-! ### READ_RATE -/

section

variable {s : State}

theorem readRatePhase_of_rateRead_some {r : Word} (hr : s.rateRead = some r) :
    readRatePhase s = (s.setResult r).complete := by
  simp [readRatePhase, hr]

theorem readRatePhase_of_rateRead_none (hr : s.rateRead = none) :
    readRatePhase s = s.raiseRateUninit .readRate := by
  simp [readRatePhase, hr]

/-- The rate check passes with `r`, which is the result (R80). -/
theorem exec_readRate_of_rateRead_some {r : Word} (ho : s.opstate = .idle)
    (hr : s.rateRead = some r) :
    exec .readRate s = .next { s with
      port := none, result := r, opstate := .idle, turn := .environment } := by
  have hphase := readRatePhase_of_rateRead_some ((State.rateRead_accept .readRate s).trans hr)
  rw [exec_of_idle _ ho, Busy.start_readRate, runPhase, hphase]
  rfl

/-- The rate check faults, and FAULT_CMD records READ_RATE's OP value (R80, R100). -/
theorem exec_readRate_of_rateRead_none (ho : s.opstate = .idle) (hr : s.rateRead = none) :
    exec .readRate s = .next { s with
      port := none, fault := .rateUninit, faultCmd := 2#32, opstate := .faulted,
      turn := .environment } := by
  have hphase := readRatePhase_of_rateRead_none ((State.rateRead_accept .readRate s).trans hr)
  rw [exec_of_idle _ ho, Busy.start_readRate, runPhase, hphase]
  rfl

end

/-- Settles O28: the three answers of `RateRead`. -/
theorem readRateGivesTheRateOrFaults : Obligations.ReadRateGivesTheRateOrFaults := by
  unfold Obligations.ReadRateGivesTheRateOrFaults
  refine ⟨fun a b => (decode_eq_ok_iff _ _).mpr ⟨rfl, trivial⟩, fun s ho =>
    ⟨fun hv => ?_, fun hv hp => ?_, fun hv hp => ?_⟩⟩
  · exact exec_readRate_of_rateRead_some ho ((s.rateRead_eq_some_iff _).mpr (.inl ⟨hv, rfl⟩))
  · exact exec_readRate_of_rateRead_some ho ((s.rateRead_eq_some_iff _).mpr (.inr ⟨hv, hp, rfl⟩))
  · exact exec_readRate_of_rateRead_none ho (s.rateRead_eq_none_iff.mpr ⟨hv, hp⟩)

end Sys2Proof.Machine

/-! Proofs: the Elapsed-Time Evaluator. The comparator as arithmetic on natural numbers, its corners, and the phases
of IS_AFTER_MSECS. -/

namespace Sys2Proof.Machine

/-! ### The comparator in arithmetic -/

/-- R84: the quotient of the delta by 1000 is above the product of the threshold, both modulo 2^32. -/
theorem isAfter_eq_true_iff (c t0 msecs r : Word) :
    isAfter c t0 msecs r = true ↔
      msecs.toNat * r.toNat % 2 ^ 32 < (2 ^ 32 - t0.toNat + c.toNat) % 2 ^ 32 / 1000 := by
  rw [isAfter, decide_eq_true_iff, gt_iff_lt, BitVec.lt_def, threshold_toNat, div_msDivisor_toNat,
    delta_toNat]

theorem isAfter_eq_false_iff (c t0 msecs r : Word) :
    isAfter c t0 msecs r = false ↔
      (2 ^ 32 - t0.toNat + c.toNat) % 2 ^ 32 / 1000 ≤ msecs.toNat * r.toNat % 2 ^ 32 := by
  rw [← Bool.not_eq_true, isAfter_eq_true_iff, Nat.not_lt]

/-- Settles O32: equality is on the false side of the comparison. -/
theorem comparatorIsBitExactAndStrict : Obligations.ComparatorIsBitExactAndStrict := by
  unfold Obligations.ComparatorIsBitExactAndStrict
  exact fun c t0 msecs r => ⟨isAfter_eq_true_iff c t0 msecs r,
    fun heq => (isAfter_eq_false_iff c t0 msecs r).mpr heq.le⟩

/-- The delta from `t0` to the count `k` ticks later is `k`, whatever `t0` is. -/
theorem delta_add_left (t0 k : Word) : delta (t0 + k) t0 = k := by
  rw [delta, BitVec.add_comm, BitVec.add_sub_cancel]

/-- Settles O34: a product from 2^32 up exceeds every threshold; and the example's delta does not depend on
`t0`. -/
theorem productOverflowLowersTheThreshold : Obligations.ProductOverflowLowersTheThreshold := by
  unfold Obligations.ProductOverflowLowersTheThreshold
  refine ⟨fun x r hproduct => (threshold x r).isLt.trans_le hproduct, by decide, fun t0 => ?_⟩
  rw [isAfter, delta_add_left]
  decide

/-- Settles O35: the greatest quotient is 4294967, and a quotient is above 0 from 1000 up. -/
theorem comparatorRangeCorners : Obligations.ComparatorRangeCorners := by
  unfold Obligations.ComparatorRangeCorners
  refine ⟨fun s hv hp => (s.rateRead_eq_some_iff _).mpr (.inr ⟨hv, hp, rfl⟩),
    fun c t0 msecs r => ⟨fun hlarge => ?_, fun hzero => ?_, ?_⟩⟩
  · rw [isAfter_eq_false_iff]
    omega
  · rw [isAfter_eq_true_iff, hzero]
    omega
  · have hdelta : (2 ^ 32 - t0.toNat + t0.toNat) % 2 ^ 32 = 0 := by
      rw [Nat.sub_add_cancel t0.isLt.le, Nat.mod_self]
    rw [isAfter_eq_false_iff, hdelta]
    exact Nat.zero_le _

/-- The answer as RESULT holds it (R31, R84). -/
theorem boolWord_isAfter (c t0 msecs r : Word) :
    boolWord (isAfter c t0 msecs r) =
      if (2 ^ 32 - t0.toNat + c.toNat) % 2 ^ 32 / 1000 > msecs.toNat * r.toNat % 2 ^ 32
      then 1#32 else 0#32 := by
  simp only [boolWord, isAfter_eq_true_iff, gt_iff_lt]

/-! ### The phases of IS_AFTER_MSECS -/

section

variable {s : State} (t0 msecs : Word)

theorem isAfterPhase_start_of_rateRead_none (hr : s.rateRead = none) :
    isAfterPhase t0 msecs .start s = s.raiseRateUninit (.isAfterMsecs t0 msecs) := by
  simp only [isAfterPhase, hr]

theorem isAfterPhase_start_of_rateRead_some {r : Word} (hr : s.rateRead = some r) :
    isAfterPhase t0 msecs .start s =
      s.readFirst.2.continueAs (.isAfterMsecs t0 msecs (.second s.readFirst.1 r)) := by
  simp only [isAfterPhase, hr]

/-- The rate check faults before any counter read, and FAULT_CMD records IS_AFTER_MSECS's OP value (R83, R100). -/
theorem exec_isAfterMsecs_of_rateRead_none (ho : s.opstate = .idle) (hr : s.rateRead = none) :
    exec (.isAfterMsecs t0 msecs) s = .next { s with
      port := none, fault := .rateUninit, faultCmd := 3#32, opstate := .faulted,
      turn := .environment } := by
  have hphase := isAfterPhase_start_of_rateRead_none t0 msecs
    ((State.rateRead_accept (.isAfterMsecs t0 msecs) s).trans hr)
  rw [exec_of_idle _ ho, Busy.start_isAfterMsecs, runPhase, hphase]
  rfl

/-- The rate check passes with `r`; the half that READ_ORDER names first is read, and both are held (R83). -/
theorem exec_isAfterMsecs_of_rateRead_some {r : Word} (ho : s.opstate = .idle)
    (hr : s.rateRead = some r) :
    exec (.isAfterMsecs t0 msecs) s = .next { s with
      port := none
      opstate := .busy (.isAfterMsecs t0 msecs
        (.second (halfOf (firstHalf s.params.readOrder) s.n) r))
      bus := .read16 (halfAddr s.params (firstHalf s.params.readOrder))
        (halfOf (firstHalf s.params.readOrder) s.n) :: s.bus
      turn := .environment } := by
  have hphase := isAfterPhase_start_of_rateRead_some t0 msecs
    ((State.rateRead_accept (.isAfterMsecs t0 msecs) s).trans hr)
  rw [exec_of_idle _ ho, Busy.start_isAfterMsecs, runPhase, hphase]
  rfl

/-- The second phase: the other half is read, and RESULT is the answer for the composed count (R83, R84). -/
theorem exec_isAfterMsecs_of_second {first : Half} {r : Word}
    (ho : s.opstate = .busy (.isAfterMsecs t0 msecs (.second first r))) :
    exec (.isAfterMsecs t0 msecs) s = .next { s with
      result := boolWord (isAfter (composeRead s.params.readOrder first
        (halfOf (secondHalf s.params.readOrder) s.n)) t0 msecs r)
      opstate := .idle
      bus := .read16 (halfAddr s.params (secondHalf s.params.readOrder))
        (halfOf (secondHalf s.params.readOrder) s.n) :: s.bus
      turn := .environment } :=
  exec_of_busy ho

end

/-- Settles O31: the two answers of `RateRead` in the first phase, and the second phase's comparison in
arithmetic. -/
theorem isAfterChecksTheRateThenCompares : Obligations.IsAfterChecksTheRateThenCompares := by
  unfold Obligations.IsAfterChecksTheRateThenCompares
  refine fun s t0 msecs => ⟨(decode_eq_ok_iff _ _).mpr ⟨rfl, rfl, rfl⟩, fun ho hv hp => ?_,
    fun r ho hrate => ?_, fun first r c ho hc => ?_⟩
  · exact exec_isAfterMsecs_of_rateRead_none t0 msecs ho (s.rateRead_eq_none_iff.mpr ⟨hv, hp⟩)
  · exact exec_isAfterMsecs_of_rateRead_some t0 msecs ho
      ((s.rateRead_eq_some_iff r).mpr (hrate.imp_left (And.imp_right Eq.symm)))
  · rw [exec_isAfterMsecs_of_second t0 msecs ho, ← hc, boolWord_isAfter]

end Sys2Proof.Machine

/-! Proofs: the Delay Primitives. The tests that end a delay as arithmetic and the deltas that meet them, the phases
of DELAY and UDELAY, and what keeps a delay in POLL along a run and what ends it. -/

namespace Sys2Proof.Machine

/-! ### The tests that end a delay, in arithmetic -/

/-- R89: the quotient of the delta by 1000, not strictly (R90). -/
theorem delayEnds_eq_true_iff (t1 wt t2 : Word) :
    delayEnds t1 wt t2 = true ↔ wt.toNat ≤ (2 ^ 32 - t1.toNat + t2.toNat) % 2 ^ 32 / 1000 := by
  rw [delayEnds, decide_eq_true_iff, ge_iff_le, BitVec.le_def, div_msDivisor_toNat, delta_toNat]

/-- R91: the raw delta. -/
theorem udelayEnds_eq_true_iff (t1 wt t2 : Word) :
    udelayEnds t1 wt t2 = true ↔ wt.toNat ≤ (2 ^ 32 - t1.toNat + t2.toNat) % 2 ^ 32 := by
  rw [udelayEnds, decide_eq_true_iff, ge_iff_le, BitVec.le_def, delta_toNat]

/-- The deltas that end a DELAY: the quotient of a delta reaches `wt` from `1000 * wt` ticks up. -/
theorem delayEnds_iff_mul_le_delta (t1 wt t2 : Word) :
    delayEnds t1 wt t2 = true ↔ 1000 * wt.toNat ≤ (delta t2 t1).toNat := by
  rw [delayEnds_eq_true_iff, ← delta_toNat, Nat.le_div_iff_mul_le (by decide), Nat.mul_comm]

/-- The deltas that end a UDELAY. -/
theorem udelayEnds_iff_le_delta (t1 wt t2 : Word) :
    udelayEnds t1 wt t2 = true ↔ wt.toNat ≤ (delta t2 t1).toNat := by
  rw [udelayEnds_eq_true_iff, ← delta_toNat]

/-- Above 4294967, the greatest quotient of a delta, a DELAY's threshold is out of reach (R95). -/
theorem delayEnds_eq_false {wt : Word} (h : 4294967 < wt.toNat) (t1 t2 : Word) :
    delayEnds t1 wt t2 = false := by
  rw [← Bool.not_eq_true, delayEnds_eq_true_iff]
  omega

/-- Exact reads in the envelope are as far apart as the true counts (R124). -/
theorem delta_cntOf_of_inEnvelope {n1 n2 : Nat} (h : InEnvelope n1 n2) :
    (delta (cntOf n2) (cntOf n1)).toNat = n2 - n1 := by
  obtain ⟨hle, hlt⟩ := h
  rw [delta_toNat, cntOf_toNat, cntOf_toNat]
  omega

/-- Settles O39: the deltas that end a poll, for the delta of two exact reads. -/
theorem pollsEndAtTheTrueTickThreshold : Obligations.PollsEndAtTheTrueTickThreshold := by
  unfold Obligations.PollsEndAtTheTrueTickThreshold
  intro n1 n2 x r henv
  rw [delayEnds_iff_mul_le_delta, udelayEnds_iff_le_delta, delta_cntOf_of_inEnvelope henv,
    threshold_toNat]
  exact ⟨Iff.rfl, Iff.rfl⟩

/-- Settles O43: the greatest delta, 2^32 - 1, is the one that meets every threshold that can be met. -/
theorem delayWindows : Obligations.DelayWindows := by
  unfold Obligations.DelayWindows
  intro t1 wt
  have hgreatest : (delta (t1 + BitVec.allOnes 32) t1).toNat = 2 ^ 32 - 1 := by
    rw [delta_add_left, BitVec.toNat_allOnes]
  refine ⟨fun t2 => ?_, udelayEnds_eq_true_iff t1 wt, ⟨?_, fun hwt => ?_⟩, fun hwt => by omega, ?_⟩
  · rw [delayEnds_iff_mul_le_delta, delta_toNat]
  · rintro ⟨t2, hends⟩
    by_contra hwt
    simp [delayEnds_eq_false (Nat.lt_of_not_le hwt)] at hends
  · refine ⟨t1 + BitVec.allOnes 32, ?_⟩
    rw [delayEnds_iff_mul_le_delta, hgreatest]
    omega
  · refine ⟨t1 + BitVec.allOnes 32, ?_⟩
    rw [udelayEnds_iff_le_delta, hgreatest]
    exact Nat.le_pred_of_lt wt.isLt

/-- Settles O45: the torn value of R72, and its delta 0xFFFF0012. -/
theorem tornPollEndsADelayEarly : Obligations.TornPollEndsADelayEarly := by
  unfold Obligations.TornPollEndsADelayEarly
  refine ⟨composeRead_highFirst_torn (by decide), fun wt => ?_⟩
  have hdelta : (delta 0x00010002#32 0x0001FFF0#32).toNat = 0xFFFF0012 := by decide
  rw [delayEnds_iff_mul_le_delta, udelayEnds_iff_le_delta, hdelta]
  exact ⟨by omega, Iff.rfl⟩

/-! ### The two delays under one name -/

/-- The two delays, "identical structure" but for the test that ends the loop (R91), for the lemmas below. -/
inductive DelayKind
  /-- DELAY. -/
  | msec
  /-- UDELAY. -/
  | usec

/-- The operation. -/
def DelayKind.instr : DelayKind → Word → Instr
  | .msec => .delay
  | .usec => .udelay

/-- Its BUSY states. -/
def DelayKind.busy : DelayKind → Word → DelayPhase → Busy
  | .msec => .delay
  | .usec => .udelay

/-- Its test of `t1`, `wt`, `t2`. -/
def DelayKind.ends : DelayKind → Word → Word → Word → Bool
  | .msec => delayEnds
  | .usec => udelayEnds

/-- `State.DelayPolling` and `State.UdelayPolling` under one name. -/
def State.Polling (k : DelayKind) (s : State) (x t1 wt : Word) : Prop :=
  s.opstate = .busy (k.busy x (.poll t1 wt)) ∨
    ∃ first, s.opstate = .busy (k.busy x (.pollSecond t1 wt first))

theorem State.polling_msec : State.Polling .msec = State.DelayPolling := rfl

theorem State.polling_usec : State.Polling .usec = State.UdelayPolling := rfl

/-- A threshold of 0 ends the loop at its first test (R93). -/
theorem DelayKind.ends_zero (k : DelayKind) (t1 t2 : Word) : k.ends t1 0#32 t2 = true := by
  cases k with
  | msec => exact (delayEnds_eq_true_iff t1 _ t2).mpr (Nat.zero_le _)
  | usec => exact (udelayEnds_eq_true_iff t1 _ t2).mpr (Nat.zero_le _)

/-! ### The phases of DELAY and UDELAY -/

theorem threshold_eq_ofNat (x r : Word) : threshold x r = BitVec.ofNat 32 (x.toNat * r.toNat) :=
  BitVec.eq_of_toNat_eq (by simp)

section

variable {s : State} {x t1 wt : Word} {first : Half} (k : DelayKind)

/-- A delay in progress: `exec` of it is its next phase. -/
theorem exec_delay_of_busy {ph : DelayPhase} (ho : s.opstate = .busy (k.busy x ph)) :
    exec (k.instr x) s =
      .next (delayPhase (k.instr x) x (k.busy x) k.ends ph s).yield := by
  cases k with
  | msec | usec => exact exec_of_busy ho

/-- The first phase, after acceptance: the half that READ_ORDER names first is read and held (R89). -/
theorem exec_delay_of_idle (ho : s.opstate = .idle) :
    exec (k.instr x) s = .next { s with
      port := none
      opstate := .busy (k.busy x (.second (halfOf (firstHalf s.params.readOrder) s.n)))
      bus := .read16 (halfAddr s.params (firstHalf s.params.readOrder))
        (halfOf (firstHalf s.params.readOrder) s.n) :: s.bus
      turn := .environment } := by
  cases k with
  | msec | usec => exact exec_of_idle _ ho

/-- The second phase where the rate check faults: FAULT_CMD records the operation's OP value (R89, R100). -/
theorem exec_delay_of_second_of_rateRead_none (ho : s.opstate = .busy (k.busy x (.second first)))
    (hr : s.rateRead = none) :
    exec (k.instr x) s = .next { s with
      fault := .rateUninit, faultCmd := (k.instr x).op.setWidth 32, opstate := .faulted
      bus := .read16 (halfAddr s.params (secondHalf s.params.readOrder))
        (halfOf (secondHalf s.params.readOrder) s.n) :: s.bus
      turn := .environment } := by
  simp only [exec_delay_of_busy k ho, delayPhase, hr]
  rfl

/-- The second phase where the rate check gives `r`: POLL is entered with `t1` and the threshold (R89). -/
theorem exec_delay_of_second_of_rateRead_some {r : Word}
    (ho : s.opstate = .busy (k.busy x (.second first))) (hr : s.rateRead = some r) :
    exec (k.instr x) s = .next { s with
      opstate := .busy (k.busy x (.poll
        (composeRead s.params.readOrder first (halfOf (secondHalf s.params.readOrder) s.n))
        (threshold x r)))
      bus := .read16 (halfAddr s.params (secondHalf s.params.readOrder))
        (halfOf (secondHalf s.params.readOrder) s.n) :: s.bus
      turn := .environment } := by
  simp only [exec_delay_of_busy k ho, delayPhase, hr]
  rfl

/-- The first read of a poll: its half is held (R89). -/
theorem exec_delay_of_poll (ho : s.opstate = .busy (k.busy x (.poll t1 wt))) :
    exec (k.instr x) s = .next { s with
      opstate := .busy (k.busy x
        (.pollSecond t1 wt (halfOf (firstHalf s.params.readOrder) s.n)))
      bus := .read16 (halfAddr s.params (firstHalf s.params.readOrder))
        (halfOf (firstHalf s.params.readOrder) s.n) :: s.bus
      turn := .environment } :=
  exec_delay_of_busy k ho

/-- The second read of a poll and the test of the composed count (R89, R91). -/
theorem exec_delay_of_pollSecond (ho : s.opstate = .busy (k.busy x (.pollSecond t1 wt first))) :
    exec (k.instr x) s = .next { s with
      opstate := if k.ends t1 wt
          (composeRead s.params.readOrder first (halfOf (secondHalf s.params.readOrder) s.n)) = true
        then .idle else .busy (k.busy x (.poll t1 wt))
      bus := .read16 (halfAddr s.params (secondHalf s.params.readOrder))
        (halfOf (secondHalf s.params.readOrder) s.n) :: s.bus
      turn := .environment } := by
  simp only [exec_delay_of_busy k ho, delayPhase, State.readSecond_val]
  split
  next hends => simp only [hends]; rfl
  next hends => simp only [hends]; rfl

/-- What `RateRead` gives to a configured block, or to one under policy ZERO (R80). -/
theorem State.rateRead_of_configured_or_zero {r : Word}
    (h : (s.rateValid = true ∧ r = s.rate) ∨
      (s.rateValid = false ∧ s.params.ratePolicy = .zero ∧ r = 0#32)) :
    s.rateRead = some r :=
  (s.rateRead_eq_some_iff r).mpr (h.imp_left (And.imp_right Eq.symm))

end

/-- Settles O37: the phases of DELAY, with the threshold and the test in arithmetic. -/
theorem delayCapturesThenPolls : Obligations.DelayCapturesThenPolls := by
  unfold Obligations.DelayCapturesThenPolls
  refine fun s msec => ⟨fun b => (decode_eq_ok_iff _ _).mpr ⟨rfl, rfl⟩, exec_delay_of_idle .msec,
    fun first ho hv hp => ?_, fun first r ho hrate => ?_, fun t1 wt ho => exec_delay_of_poll .msec ho,
    fun t1 wt first t2 ho ht2 => ?_⟩
  · exact exec_delay_of_second_of_rateRead_none .msec ho (s.rateRead_eq_none_iff.mpr ⟨hv, hp⟩)
  · rw [← threshold_eq_ofNat]
    exact exec_delay_of_second_of_rateRead_some .msec ho (State.rateRead_of_configured_or_zero hrate)
  · simp only [← delayEnds_eq_true_iff, ht2]
    exact exec_delay_of_pollSecond .msec ho

/-- Settles O38: the phases of UDELAY, with the threshold and the test in arithmetic. -/
theorem udelayCapturesThenPolls : Obligations.UdelayCapturesThenPolls := by
  unfold Obligations.UdelayCapturesThenPolls
  refine fun s usec => ⟨fun b => (decode_eq_ok_iff _ _).mpr ⟨rfl, rfl⟩, exec_delay_of_idle .usec,
    fun first ho hv hp => ?_, fun first r ho hrate => ?_, fun t1 wt ho => exec_delay_of_poll .usec ho,
    fun t1 wt first t2 ho ht2 => ?_⟩
  · exact exec_delay_of_second_of_rateRead_none .usec ho (s.rateRead_eq_none_iff.mpr ⟨hv, hp⟩)
  · rw [← threshold_eq_ofNat]
    exact exec_delay_of_second_of_rateRead_some .usec ho (State.rateRead_of_configured_or_zero hrate)
  · simp only [← udelayEnds_eq_true_iff, ht2]
    exact exec_delay_of_pollSecond .usec ho

/-! ### A step of a delay in POLL -/

section

variable {k : DelayKind} {s t : State} {x t1 wt : Word}

theorem State.pollHits_of_environment (ht : s.turn = .environment) : s.pollHits = false := by
  simp [State.pollHits, ht]

theorem State.pollHits_of_poll (ho : s.opstate = .busy (k.busy x (.poll t1 wt))) :
    s.pollHits = false := by
  cases k <;> cases ht : s.turn <;> simp [State.pollHits, ht, ho, DelayKind.busy]

theorem State.pollHits_of_pollSecond {first : Half} (ht : s.turn = .block)
    (ho : s.opstate = .busy (k.busy x (.pollSecond t1 wt first))) :
    s.pollHits = k.ends t1 wt (s.readSecond first).1 := by
  cases k <;> simp [State.pollHits, ht, ho, DelayKind.busy, DelayKind.ends]

/-- On the block's turn a delay in progress is what runs. -/
theorem step_of_delay_busy {ph : DelayPhase} (ht : s.turn = .block)
    (ho : s.opstate = .busy (k.busy x ph)) : step s = exec (k.instr x) s := by
  cases k with
  | msec | usec => exact step_of_fetch_run ht (State.fetch_busy ho)

/-- A step of a delay in POLL, without a reset: the environment's move or the first read of a poll keeps POLL, and
the second read ends it in IDLE exactly if the poll meets the condition. -/
theorem step_of_polling (h : step s = .next t) (hr : ¬ s.ResetComing) (hp : s.Polling k x t1 wt) :
    t.result = s.result ∧
      ((s.pollHits = true ∧ t.opstate = .idle) ∨
        (s.pollHits = false ∧ t.Polling k x t1 wt)) := by
  cases ht : s.turn with
  | environment =>
    rw [step_of_environment ht, State.envAdvance_noReset (State.nextMove_reset_eq_none hr ht),
      Host.Outcome.next.injEq] at h
    subst h
    exact ⟨by simp, .inr ⟨State.pollHits_of_environment ht, by simpa [State.Polling] using hp⟩⟩
  | block =>
    obtain ho | ⟨first, ho⟩ := hp
    · rw [step_of_delay_busy ht ho, exec_delay_of_poll k ho, Host.Outcome.next.injEq] at h
      subst h
      exact ⟨rfl, .inr ⟨State.pollHits_of_poll ho, .inr ⟨_, rfl⟩⟩⟩
    · rw [step_of_delay_busy ht ho, exec_delay_of_pollSecond k ho, Host.Outcome.next.injEq] at h
      subst h
      rw [State.pollHits_of_pollSecond ht ho, State.readSecond_val]
      cases hends : k.ends t1 wt (composeRead s.params.readOrder first
          (halfOf (secondHalf s.params.readOrder) s.n)) with
      | true => exact ⟨rfl, .inl ⟨rfl, by simp⟩⟩
      | false => exact ⟨rfl, .inr ⟨rfl, .inl (by simp)⟩⟩

end

/-- Settles O40: the step of a delay in POLL, for either delay. -/
theorem onlyConditionOrResetEndsADelay : Obligations.OnlyConditionOrResetEndsADelay := by
  unfold Obligations.OnlyConditionOrResetEndsADelay
  rw [← State.polling_msec, ← State.polling_usec]
  exact fun s t x t1 wt h hr => ⟨step_of_polling h hr, step_of_polling h hr⟩

/-! ### A delay in POLL along a run -/

section

variable {k : DelayKind} {r : Nat → State} {x t1 wt : Word}

/-- A run keeps a delay in POLL, with its `t1` and `wt`, as long as no poll meets the condition. -/
theorem polling_of_run_without_hit {j : Nat} (hrun : IsRunTo j r) (hno : NoResetTo j r)
    (hp : (r 0).Polling k x t1 wt)
    (hmiss : ∀ i, i < j → (r i).Polling k x t1 wt → (r i).pollHits = false) :
    ∀ i, i ≤ j → (r i).Polling k x t1 wt := by
  intro i
  induction i with
  | zero => exact fun _ => hp
  | succ i ih =>
    intro hi
    have hpi : (r i).Polling k x t1 wt := ih (by omega)
    obtain ⟨-, ⟨hhit, -⟩ | ⟨-, hkept⟩⟩ := step_of_polling (hrun i hi) (hno i hi) hpi
    · simp [hmiss i hi hpi] at hhit
    · exact hkept

/-- The first poll that meets the condition ends the delay. -/
theorem polling_until_first_hit {j : Nat} (hrun : IsRunTo (j + 1) r) (hno : NoResetTo (j + 1) r)
    (hhit : (r j).pollHits = true) (hmiss : ∀ i, i < j → (r i).pollHits = false)
    (hp : (r 0).Polling k x t1 wt) :
    (∀ i, i ≤ j → (r i).Polling k x t1 wt) ∧ (r (j + 1)).opstate = .idle := by
  have hkept : ∀ i, i ≤ j → (r i).Polling k x t1 wt :=
    polling_of_run_without_hit (fun i hi => hrun i (by omega)) (fun i hi => hno i (by omega)) hp
      fun i hi _ => hmiss i hi
  obtain ⟨-, ⟨-, hidle⟩ | ⟨hno_hit, -⟩⟩ :=
    step_of_polling (hrun j (by omega)) (hno j (by omega)) (hkept j le_rfl)
  · exact ⟨hkept, hidle⟩
  · simp [hhit] at hno_hit

end

/-- Settles O41: a delay stays in POLL up to the first hit, which ends it. -/
theorem delayReturnsAtTheFirstPollInTheWindow :
    Obligations.DelayReturnsAtTheFirstPollInTheWindow := by
  unfold Obligations.DelayReturnsAtTheFirstPollInTheWindow
  rw [← State.polling_msec, ← State.polling_usec]
  exact fun r x t1 wt j hrun hno hhit hmiss =>
    ⟨polling_until_first_hit hrun hno hhit hmiss, polling_until_first_hit hrun hno hhit hmiss⟩

/-- No poll of a DELAY meets a threshold out of reach. -/
theorem State.pollHits_of_unreachable {s : State} {msec t1 wt : Word} (hwt : 4294967 < wt.toNat)
    (hp : s.Polling .msec msec t1 wt) : s.pollHits = false := by
  cases ht : s.turn with
  | environment => exact State.pollHits_of_environment ht
  | block =>
    obtain ho | ⟨first, ho⟩ := hp
    · exact State.pollHits_of_poll ho
    · exact (State.pollHits_of_pollSecond ht ho).trans (delayEnds_eq_false hwt _ _)

/-- Settles O42: a DELAY in POLL with a threshold out of reach meets its condition at no poll, so POLL is kept. -/
theorem unreachableDelayHangs : Obligations.UnreachableDelayHangs := by
  unfold Obligations.UnreachableDelayHangs
  rw [← State.polling_msec]
  exact fun r msec t1 wt j hrun hno hp hwt =>
    polling_of_run_without_hit hrun hno hp fun _ _ => State.pollHits_of_unreachable hwt

/-! ### A delay of threshold 0 over its seven steps -/

/-- A run is what `core.run` computes from its first state. -/
theorem run_of_isRunTo (j : Nat) : ∀ {r : Nat → State}, IsRunTo j r →
    Sys2Proof.core.run j (r 0) = .next (r j) := by
  induction j with
  | zero => exact fun _ => rfl
  | succ j ih =>
    intro r hrun
    rw [run_succ_of_step (hrun 0 (Nat.succ_pos j))]
    exact ih (r := fun i => r (i + 1)) fun i hi => hrun (i + 1) (by omega)

/-- From `s` to `t` the counter has advanced by `ticks` and the block has made `reads` accesses; RESULT, FAULT and
what `RateRead` gives are as they were. -/
structure Elapses (ticks reads : Nat) (s t : State) : Prop where
  n : t.n = s.n + ticks
  bus : t.bus.length = s.bus.length + reads
  result : t.result = s.result
  fault : t.fault = s.fault
  rateRead : t.rateRead = s.rateRead

theorem Elapses.trans {a b c d : Nat} {s t u : State} (h : Elapses a b s t) (h' : Elapses c d t u) :
    Elapses (a + c) (b + d) s u where
  n := by rw [h'.n, h.n, Nat.add_assoc]
  bus := by rw [h'.bus, h.bus, Nat.add_assoc]
  result := h'.result.trans h.result
  fault := h'.fault.trans h.fault
  rateRead := h'.rateRead.trans h.rateRead

/-- The environment's move without a reset. -/
theorem elapses_of_environment {s t : State} (ht : s.turn = .environment) (h : step s = .next t)
    (hr : ¬ s.ResetComing) :
    t.turn = .block ∧ t.opstate = s.opstate ∧ Elapses s.nextMove.ticks 0 s t := by
  rw [step_of_environment ht, State.envAdvance_noReset (State.nextMove_reset_eq_none hr ht),
    Host.Outcome.next.injEq] at h
  subst h
  exact ⟨by simp, by simp, by constructor <;> simp⟩

/-- A phase of the block that goes on to OPSTATE `o` with the access `a`, without a fault. -/
theorem elapses_of_access {s t : State} {o : OpState} {p : Option Command} {a : BusAccess}
    (hphase : step s = .next { s with
      port := p, opstate := o, bus := a :: s.bus, turn := .environment })
    (h : step s = .next t) : t.turn = .environment ∧ t.opstate = o ∧ Elapses 0 1 s t := by
  rw [hphase, Host.Outcome.next.injEq] at h
  subst h
  exact ⟨rfl, rfl, ⟨rfl, rfl, rfl, rfl, rfl⟩⟩

/-- Such a phase, and then the environment's move without a reset. -/
theorem elapses_of_round {s t u : State} {o : OpState} {p : Option Command} {a : BusAccess}
    (hphase : step s = .next { s with
      port := p, opstate := o, bus := a :: s.bus, turn := .environment })
    (h : step s = .next t) (h' : step t = .next u) (hr : ¬ t.ResetComing) :
    u.turn = .block ∧ u.opstate = o ∧ Elapses t.nextMove.ticks 1 s u := by
  obtain ⟨hturn, hop, helapses⟩ := elapses_of_access hphase h
  obtain ⟨hturn', hop', helapses'⟩ := elapses_of_environment hturn h' hr
  exact ⟨hturn', hop'.trans hop, Nat.zero_add t.nextMove.ticks ▸ helapses.trans helapses'⟩

theorem exists_delayKind {c : Command} {x : Word}
    (h : decode c = .ok (.delay x) ∨ decode c = .ok (.udelay x)) :
    ∃ k : DelayKind, decode c = .ok (k.instr x) := by
  obtain h | h := h
  · exact ⟨.msec, h⟩
  · exact ⟨.usec, h⟩

theorem threshold_eq_zero {x r : Word} (h : x.toNat * r.toNat % 2 ^ 32 = 0) : threshold x r = 0#32 :=
  BitVec.eq_of_toNat_eq ((threshold_toNat x r).trans h)

/-- Settles O44: the four phases of the delay, with an environment's move after each of the first three; the test
of the first poll holds. -/
theorem zeroThresholdDelayReadsTwiceAndReturns :
    Obligations.ZeroThresholdDelayReadsTwiceAndReturns := by
  unfold Obligations.ZeroThresholdDelayReadsTwiceAndReturns
  intro r c x rate hrun hno ht ho hp hdecode hrate hproduct
  obtain ⟨k, hd⟩ := exists_delayKind hdecode
  have haccept := (step_of_fetch_run ht (State.fetch_idle_legal ho hp hd)).trans
    (exec_delay_of_idle k ho)
  obtain ⟨ht2, ho2, helapses2⟩ :=
    elapses_of_round haccept (hrun 0 (by decide)) (hrun 1 (by decide)) (hno 1 (by decide))
  have hrate2 : (r 2).rateRead = some rate :=
    helapses2.rateRead.trans (State.rateRead_of_configured_or_zero hrate)
  have hcapture := (step_of_delay_busy ht2 ho2).trans
    (exec_delay_of_second_of_rateRead_some k ho2 hrate2)
  obtain ⟨ht4, ho4, helapses4⟩ :=
    elapses_of_round hcapture (hrun 2 (by decide)) (hrun 3 (by decide)) (hno 3 (by decide))
  rw [threshold_eq_zero hproduct] at ho4
  have hpoll := (step_of_delay_busy ht4 ho4).trans (exec_delay_of_poll k ho4)
  obtain ⟨ht6, ho6, helapses6⟩ :=
    elapses_of_round hpoll (hrun 4 (by decide)) (hrun 5 (by decide)) (hno 5 (by decide))
  have htest := (step_of_delay_busy ht6 ho6).trans (exec_delay_of_pollSecond k ho6)
  rw [if_pos (k.ends_zero _ _)] at htest
  obtain ⟨-, hidle, helapses7⟩ := elapses_of_access htest (hrun 6 (by decide))
  have hall := ((helapses2.trans helapses4).trans helapses6).trans helapses7
  exact ⟨run_of_isRunTo 7 hrun, hidle, hall.fault, hall.result,
    by simpa [Nat.add_assoc] using hall.n, hall.bus⟩

end Sys2Proof.Machine

/-! Proofs: the exceptions. A phase that changes FAULT does so through a rate check that fails, and leaves the other
states of the spec as they are; so does the rejection of an illegal word. -/

namespace Sys2Proof.Machine

/-! ### Precision -/

/-- The block is FAULTED in `t`, and of the states of the spec `t` has all but OPSTATE, FAULT and FAULT_CMD as
they are in `s` (R102). -/
structure FaultedPrecisely (s t : State) : Prop where
  opstate : t.opstate = .faulted
  frame : t.n = s.n ∧ t.pllAddac = s.pllAddac ∧ t.clockSel = s.clockSel ∧ t.rate = s.rate ∧
    t.rateValid = s.rateValid ∧ t.result = s.result ∧ t.params = s.params

theorem raiseRateUninit_precise (i : Instr) (s : State) :
    FaultedPrecisely s (s.raiseRateUninit i) where
  opstate := rfl
  frame := by simp

theorem raiseIllegal_precise (w : Word) (s : State) : FaultedPrecisely s (s.raiseIllegal w) where
  opstate := rfl
  frame := by simp

/-- The block's move ends without touching what precision speaks of. -/
theorem FaultedPrecisely.yield {s t : State} (h : FaultedPrecisely s t) :
    FaultedPrecisely s t.yield :=
  ⟨h.opstate, h.frame⟩

/-! ### Which phases raise a fault -/

/-- From `s` to `t` the operation `i`, one of those that read the rate, raises RATE_UNINIT (R100, R101). The
record of the bus is left open: a delay makes its access before the rate check. -/
structure RaisesRateUninit (i : Instr) (s t : State) : Prop where
  rate : s.rateRead = none
  op : 2 ≤ i.op.toNat ∧ i.op.toNat ≤ 5
  fault : t.fault = .rateUninit
  faultCmd : t.faultCmd = i.op.setWidth 32
  precise : FaultedPrecisely s t

theorem RaisesRateUninit.yield {i : Instr} {s t : State} (h : RaisesRateUninit i s t) :
    RaisesRateUninit i s t.yield :=
  ⟨h.rate, h.op, h.fault, h.faultCmd, h.precise.yield⟩

/-- Acceptance writes only OPSTATE and the port, so a fault of the first phase is one of the accepting step. -/
theorem RaisesRateUninit.of_accept {i j : Instr} {s t : State}
    (h : RaisesRateUninit i (s.accept j) t) : RaisesRateUninit i s t :=
  ⟨h.rate, h.op, h.fault, h.faultCmd, h.precise.opstate, h.precise.frame⟩

/-- An access before the raise is one from the state before it. -/
theorem raiseRateUninit_record_raises {i : Instr} {s : State} (hr : s.rateRead = none)
    (hi : 2 ≤ i.op.toNat ∧ i.op.toNat ≤ 5) (a : BusAccess) :
    RaisesRateUninit i s ((s.record a).raiseRateUninit i) :=
  ⟨hr, hi, rfl, rfl, rfl, (raiseRateUninit_precise i (s.record a)).frame⟩

theorem raiseRateUninit_raises {i : Instr} {s : State} (hr : s.rateRead = none)
    (hi : 2 ≤ i.op.toNat ∧ i.op.toNat ≤ 5) : RaisesRateUninit i s (s.raiseRateUninit i) :=
  ⟨hr, hi, rfl, rfl, raiseRateUninit_precise i s⟩

theorem readRatePhase_raises {s : State} (h : (readRatePhase s).fault ≠ s.fault) :
    RaisesRateUninit .readRate s (readRatePhase s) := by
  cases hr : s.rateRead with
  | none => exact readRatePhase_of_rateRead_none hr ▸ raiseRateUninit_raises hr (by decide)
  | some r => exact absurd (congrArg State.fault (readRatePhase_of_rateRead_some hr)) h

theorem isAfterPhase_raises {t0 msecs : Word} {ph : ComparePhase} {s : State}
    (h : (isAfterPhase t0 msecs ph s).fault ≠ s.fault) :
    RaisesRateUninit (.isAfterMsecs t0 msecs) s (isAfterPhase t0 msecs ph s) := by
  cases ph with
  | start =>
    cases hr : s.rateRead with
    | none =>
      exact isAfterPhase_start_of_rateRead_none t0 msecs hr ▸
        raiseRateUninit_raises hr (by simp [Instr.op])
    | some r =>
      exact absurd (congrArg State.fault (isAfterPhase_start_of_rateRead_some t0 msecs hr)) h
  | second first r => exact absurd rfl h

/-- Of a delay's phases only the second, which checks the rate, raises a fault (R89, R91). -/
theorem delayPhase_raises {i : Instr} {x : Word} {wrap : DelayPhase → Busy}
    {ends : Word → Word → Word → Bool} {ph : DelayPhase} {s : State}
    (hi : 2 ≤ i.op.toNat ∧ i.op.toNat ≤ 5)
    (h : (delayPhase i x wrap ends ph s).fault ≠ s.fault) :
    RaisesRateUninit i s (delayPhase i x wrap ends ph s) := by
  cases ph with
  | start | poll => exact absurd rfl h
  | second first =>
    cases hr : s.rateRead with
    | none =>
      simp only [delayPhase, hr]
      exact raiseRateUninit_record_raises hr hi _
    | some r => simp [delayPhase, hr] at h
  | pollSecond t1 wt first =>
    refine absurd ?_ h
    simp only [delayPhase]
    cases ends t1 wt (s.readSecond first).1 <;> rfl

/-- A phase that changes FAULT is a rate check that fails (R101). -/
theorem runPhase_raises {b : Busy} {s : State} (h : (runPhase b s).fault ≠ s.fault) :
    RaisesRateUninit b.instr s (runPhase b s) := by
  cases b with
  | readCounter ph => exact absurd (runPhase_fault (.inl rfl) s).1 h
  | clockSet m en ph => exact absurd (runPhase_fault (.inr ⟨m, en, rfl⟩) s).1 h
  | readRate => exact readRatePhase_raises h
  | isAfterMsecs t0 msecs ph => exact isAfterPhase_raises h
  | delay | udelay => exact delayPhase_raises (by simp [Busy.instr, Instr.op]) h

/-! ### Which steps raise a fault -/

/-- The environment raises no fault: its move keeps FAULT, or resets it. -/
theorem State.envAdvance_fault_eq_none {s : State} (h : s.fault = .none) :
    s.envAdvance.fault = .none := by
  cases hr : s.nextMove.reset with
  | none => simp [State.envAdvance_noReset hr, h]
  | some d => simp [State.envAdvance_reset hr]

/-- What a step from `s` to `t` that raises a fault is: the rejection of an illegal word, or a failed rate check
of the operation the block runs (R101). -/
inductive RaiseCase (s t : State) : Prop
  | illegal (c : Command) (e : DecodeError) (port : s.port = some c) (dec : decode c = .error e)
      (eq : t = (s.raiseIllegal c.cmd).yield)
  | rateUninit (i : Instr) (fetch : s.fetch = .run i) (raises : RaisesRateUninit i s t)

theorem RaiseCase.precise {s t : State} (h : RaiseCase s t) : FaultedPrecisely s t := by
  cases h with
  | illegal c _ _ _ eq => exact eq ▸ (raiseIllegal_precise c.cmd s).yield
  | rateUninit _ _ raises => exact raises.precise

theorem step_raises {s t : State} (hs : s.fault = .none) (h : step s = .next t)
    (ht : t.fault ≠ .none) : s.turn = .block ∧ RaiseCase s t := by
  cases step_cases h with
  | environment _ eq => exact absurd (eq ▸ State.envAdvance_fault_eq_none hs) ht
  | faulted _ _ eq => exact absurd (eq ▸ hs) ht
  | nothing _ _ _ eq => exact absurd (eq ▸ hs) ht
  | illegal turn _ c e port dec eq => exact ⟨turn, .illegal c e port dec eq⟩
  | accepts turn op c i port dec eq =>
    have hfault : (runPhase (Busy.start i) (s.accept i)).fault ≠ (s.accept i).fault := by
      simpa [eq, hs] using ht
    have hraises := (runPhase_raises hfault).yield.of_accept
    rw [Busy.instr_start, ← eq] at hraises
    exact ⟨turn, .rateUninit i (State.fetch_idle_legal op port dec) hraises⟩
  | continues turn b op eq =>
    have hfault : (runPhase b s).fault ≠ s.fault := by simpa [eq, hs] using ht
    exact ⟨turn, .rateUninit b.instr (State.fetch_busy op) (eq ▸ (runPhase_raises hfault).yield)⟩

/-- Settles O46: the step is one of the two of `RaiseCase`, and both are precise. -/
theorem raisedFaultIsNamedAndPrecise : Obligations.RaisedFaultIsNamedAndPrecise := by
  unfold Obligations.RaisedFaultIsNamedAndPrecise
  intro s t hs h ht
  obtain ⟨hturn, hraise⟩ := step_raises hs h ht
  refine ⟨hturn, hraise.precise.opstate, hraise.precise.frame, ?_⟩
  cases hraise with
  | illegal c e port dec eq => exact .inl (eq ▸ ⟨rfl, rfl, c, e, port, dec, rfl⟩)
  | rateUninit i fetch raises =>
    obtain ⟨hvalid, hpolicy⟩ := s.rateRead_eq_none_iff.mp raises.rate
    have hcmd : t.faultCmd.toNat = i.op.toNat := by
      rw [raises.faultCmd, BitVec.toNat_setWidth_of_le (by decide)]
    exact .inr ⟨raises.fault, hvalid, hpolicy, i, fetch, hcmd, raises.op⟩

end Sys2Proof.Machine

/-! Proofs: the envelope of a delta between exact reads (R124). The delta is the true ticks modulo 2^32, so it is
exact for fewer than 2^32 of them and too small from there. -/

namespace Sys2Proof.Machine

/-- R86: the wraps of the counter before the first read cancel in the delta; those between the reads are lost. -/
theorem delta_cntOf_toNat {n0 n1 : Nat} (h : n0 ≤ n1) :
    (delta (cntOf n1) (cntOf n0)).toNat = (n1 - n0) % 2 ^ 32 := by
  rw [delta_toNat, cntOf_toNat, cntOf_toNat]
  omega

theorem inEnvelope_iff_sub_lt {n0 n1 : Nat} (h : n0 ≤ n1) : InEnvelope n0 n1 ↔ n1 - n0 < 2 ^ 32 :=
  and_iff_right h

/-- Settles O33: a remainder modulo 2^32 is the number itself exactly below 2^32, and below every number from
there. -/
theorem deltaIsExactOnlyInsideTheEnvelope : Obligations.DeltaIsExactOnlyInsideTheEnvelope := by
  unfold Obligations.DeltaIsExactOnlyInsideTheEnvelope
  intro n0 n1 hle
  rw [delta_cntOf_toNat hle, inEnvelope_iff_sub_lt hle]
  refine ⟨rfl, Nat.mod_eq_iff_lt (by decide), fun hout => ?_⟩
  calc (n1 - n0) % 2 ^ 32 < 2 ^ 32 := Nat.mod_lt _ (by decide)
    _ ≤ n1 - n0 := Nat.le_of_not_lt hout

end Sys2Proof.Machine
